-- ==== Sys2Proof/Word.lean ====
section
/-!
DEFINITION. The machine's words, and the operand types an instruction carries (00_scope.md R9, R10).
-/
namespace Sys2Proof

/-- One byte of a packet, a buffer or a link stream. -/
abbrev Byte := BitVec 8

/-- A 16-bit field: command, deviceId, checksum, and the 16-bit registers. -/
abbrev Word16 := BitVec 16

/-- A 32-bit register or the 32-bit parameter field. -/
abbrev Word32 := BitVec 32

/-- The policy bits that ride with START in a CTRL write (10_state.md R21, 70_reset_and_hazards.md R184). -/
structure Policy where
  /-- CTRL bit 3: validate the checksum of every received packet. -/
  verify : Bool
  /-- CTRL bit 4: a receive timeout halts the block until reset. -/
  toFatal : Bool
deriving DecidableEq, Repr, Inhabited

/-- How a protocol command is launched: by EXCHANGE (42_protocol_commands.md R124) or by SEND_CMD (the opcode
table's "launch" field). -/
structure Launch where
  /-- true: SEND_CMD, the command is sent and no reply is received; false: EXCHANGE. -/
  sendOnly : Bool
  policy : Policy
deriving DecidableEq, Repr, Inhabited

end Sys2Proof
end

