-- ==== Sys2Proof/Machine/Event.lean ====
section
/-!
DEFINITION. What the agents can do, as plain data: the registers' names, a host action, a line of a host program,
a task of the host's reference driver, and the atomic event of one agent (20_memory.md R59, 41_link_operations.md R104).
-/
namespace Sys2Proof.Machine

/-- The 14 registers of the register map (20_memory.md R46). -/
inductive Reg where
  | ctrl | status | cmd | param | lastParam | lastAck | pollInterval | maxPolls
  | stallCount | rxCount | rxCsum | txCsum | intEn | rxAvail
deriving DecidableEq, Repr

/-- The block operation in CTRL.OP (30_encoding.md R80): all four values of the field are legal. -/
inductive BlockOp where
  | exchange | recvData | sendCmd | recvCmd
deriving DecidableEq, Repr, Inhabited

/-- The two formats of the opcode table: a word for CTRL (30_encoding.md R79), or a protocol command (R82). -/
inductive Format where
  | ctrl
  | cmdPacket
deriving DecidableEq, Repr

/-- The host action an instruction is encoded as: one CTRL write, or the writes of CMD, PARAM and CTRL that
42_protocol_commands.md R124 makes of a protocol command, each a step of its own (20_memory.md R59). -/
inductive HostAction where
  /-- Write `word` to CTRL. -/
  | ctrl (word : Word32)
  /-- Write `opcode` to CMD, `parameter` to PARAM, then `launch` with START set to CTRL. -/
  | command (opcode : Word16) (parameter : Word32) (launch : Word32)
deriving DecidableEq, Repr

/-- A host expression over unbounded integer variables (30_encoding.md R89, `LET`: `+`, `-`, `&`, `|`, `==`, `!=`, `<`,
`>=`), which is also the condition of `IF`. Variables are numbered. -/
inductive HostExpr where
  | lit (n : Int)
  | var (x : Nat)
  | add (a b : HostExpr)
  | sub (a b : HostExpr)
  | band (a b : HostExpr)
  | bor (a b : HostExpr)
  | eq (a b : HostExpr)
  | ne (a b : HostExpr)
  | lt (a b : HostExpr)
  | ge (a b : HostExpr)
deriving DecidableEq, Repr

/-- One line of a host program (30_encoding.md R89). Variables and labels are numbered. -/
inductive HostLine where
  /-- `WR REG, imm32`. -/
  | wr (r : Reg) (imm : Word32)
  /-- `RD REG -> name`. -/
  | rd (r : Reg) (name : Nat)
  /-- `RDB RX[i] -> name`. -/
  | rdb (i : Nat) (name : Nat)
  /-- `RDW RX[i] -> name`. -/
  | rdw (i : Nat) (name : Nat)
  /-- `WAIT STATUS.BUSY == 0`. -/
  | waitIdle
  /-- `W1C STATUS, mask`. -/
  | w1c (mask : Word32)
  /-- `label:`. -/
  | label (l : Nat)
  /-- `IF cond GOTO label`. -/
  | ifGoto (c : HostExpr) (l : Nat)
  /-- `GOTO label`. -/
  | goto (l : Nat)
  /-- `LET name = expr`. -/
  | letVar (name : Nat) (e : HostExpr)
  /-- `DELAY n ms`. -/
  | delay (n : Nat)
deriving DecidableEq, Repr

/-- A task a caller gives the reference driver (43_host_sequences.md): one call, or one of its sequences. -/
inductive Task where
  /-- `call(op, p)` (R140). -/
  | call (op : Word16) (p : Word32)
  /-- `enroll(slot)` (R142). -/
  | enroll (slot : Word32)
  /-- `capture()` (R143). -/
  | capture
  /-- `identify()` (R148). -/
  | identify
  /-- `is_pressed()` (R149). -/
  | isPressed
deriving DecidableEq, Repr

/-- One atomic step of one agent (20_memory.md R59, 41_link_operations.md R104). -/
inductive Event where
  /-- Host: the first write of the host action an instruction stands for; the later ones are then pending. -/
  | issue (a : HostAction)
  /-- Host: the oldest pending write of a host action it has begun. -/
  | hostWrite
  /-- Host: a bus read of `n` bytes at address `addr`. -/
  | busRead (addr n : Nat)
  /-- Host: a bus write of `n` bytes at address `addr`. -/
  | busWrite (addr n : Nat) (v : Word32)
  /-- Host: the host program takes its next line (30_encoding.md R89). -/
  | hostTurn
  /-- Host: a caller gives the reference driver a task, the quality its captures use and its policy bits. -/
  | driverStart (t : Task) (quality : Word32) (pol : Policy)
  /-- Host: the reference driver does its next bus access. -/
  | driverTurn
  /-- The template sink answers a `store` (43_host_sequences.md R150). -/
  | sinkAnswer (ok : Bool)
  /-- Engine: its next step; `accept` says whether the Transport accepts a TX byte now. -/
  | engine (accept : Bool)
  /-- Module: it sends byte `b` towards the RX FIFO. -/
  | moduleByte (b : Byte)
  /-- Module: a byte it holds back moves into the RX FIFO, if there is room. -/
  | moduleResume
  /-- Timer: one tick. -/
  | tick
  /-- The platform asserts the block's reset input (70_reset_and_hazards.md R170). -/
  | reset
  /-- The platform resets the Transport (70_reset_and_hazards.md R178; its effect: DESIGN CHOICE, log 21), while no
  operation is in progress (20_memory.md R65). -/
  | transportReset
deriving DecidableEq, Repr, Inhabited

end Sys2Proof.Machine
end

