-- ==== Sys2Proof/Config.lean ====
section
/-!
DEFINITION. The block's parameters with the values the spec gives (00_scope.md R9), and the free values: opaque
constants, so that nothing can be proved of their value.
-/
namespace Sys2Proof.Config

/-- Command/Acknowledge packet length. -/
abbrev cmdPktLen : Nat := 12
/-- Data packet length (90_conflicts.md C1). -/
abbrev dataPktLen : Nat := 504
/-- Template payload length. -/
abbrev dataPayloadLen : Nat := 498
/-- Command packet magic, start1 then start2. -/
def cmdMagic : List Byte := [0x55#8, 0xAA#8]
/-- Data packet magic, start1 then start2. -/
def dataMagic : List Byte := [0x5A#8, 0xA5#8]
/-- `DEVICE_ID` (30_encoding.md R68, R71). -/
abbrev deviceId : Nat := 0x0001
/-- `ACK_CODE` (30_encoding.md R87). -/
def ackCode : Word16 := 0x0030#16
/-- `NACK_CODE` (30_encoding.md R87). -/
def nackCode : Word16 := 0x0031#16
/-- "no finger currently pressed" (30_encoding.md R88). -/
def noFingerCode : Word32 := 0x1012#32
/-- `CAPTURE_CEILING` (43_host_sequences.md R143). -/
abbrev captureCeiling : Nat := 500
/-- The highest module slot, and the highest code of the duplicate-finger range (00_scope.md R9, 43 R146). -/
abbrev slotMax : Nat := 199
/-- Offset of TX_BUF[0] in the register window (10_state.md R37). -/
abbrev txBase : Nat := 0x100
/-- Offset of RX_BUF[0] in the register window (10_state.md R38). -/
abbrev rxBase : Nat := 0x200
/-- Size of the register window (20_memory.md R44). -/
abbrev windowSize : Nat := 0x1000

/-- FREE VALUE (DESIGN CHOICE, log 6): what an unwritten buffer byte at window offset `off` reads as in draw number
`draw` (10_state.md R37, R38: "an arbitrary value (a draw)"). -/
opaque freeByte (draw off : Nat) : Byte

/-- FREE VALUE (DESIGN CHOICE, log 1): the agent's event that happens where State.inputs lists none, for each value of
the counter State.sched (20_memory.md R59: "Steps of different agents interleave in any order"). -/
opaque freeEvent (sched : Nat) : Machine.Event

end Sys2Proof.Config
end

