-- ==== Sys2Proof/Syntax.lean ====
section
/-!
DEFINITION. The instructions: one constructor for each row of spec/opcode_table.json.
The block is no instruction-set processor (00_scope.md R2): the four block operations are CTRL writes with
START = 1 (30_encoding.md R80), the thirteen protocol commands are (opcode, parameter) pairs that the host
places in CMD and PARAM and launches (30_encoding.md R84, 42_protocol_commands.md R124).
-/
namespace Sys2Proof

/-- A row of the opcode table with its operands. The block carries any parameter unchanged (30_encoding.md R86),
so a command's parameter is an operand even where R85's convention is 0; LED_ON and LED_OFF are told apart by
their parameter alone (R84), so they carry none. -/
inductive Instr where
  /-- EXCHANGE (41_link_operations.md R106). -/
  | exchange (pol : Policy)
  /-- RECV_DATA (41_link_operations.md R107). -/
  | recvData (pol : Policy)
  /-- SEND_CMD (41_link_operations.md R108). -/
  | sendCmd (pol : Policy)
  /-- RECV_CMD (41_link_operations.md R109). -/
  | recvCmd (pol : Policy)
  /-- OPEN (42_protocol_commands.md R125). -/
  | openCmd (parameter : Word32) (launch : Launch)
  /-- CLOSE (42_protocol_commands.md R126). -/
  | closeCmd (parameter : Word32) (launch : Launch)
  /-- LED_ON (42_protocol_commands.md R127). -/
  | ledOn (launch : Launch)
  /-- LED_OFF (42_protocol_commands.md R128). -/
  | ledOff (launch : Launch)
  /-- ENROLL_START (42_protocol_commands.md R129); the parameter is the slot, or 0xFFFFFFFF for auto. -/
  | enrollStart (slot : Word32) (launch : Launch)
  /-- ENROLL1 (42_protocol_commands.md R130). -/
  | enroll1 (parameter : Word32) (launch : Launch)
  /-- ENROLL2 (42_protocol_commands.md R131). -/
  | enroll2 (parameter : Word32) (launch : Launch)
  /-- ENROLL3 (42_protocol_commands.md R132). -/
  | enroll3 (parameter : Word32) (launch : Launch)
  /-- IS_PRESS_FINGER (42_protocol_commands.md R133). -/
  | isPressFinger (parameter : Word32) (launch : Launch)
  /-- DELETE_ID (42_protocol_commands.md R134); the parameter is the slot. -/
  | deleteId (slot : Word32) (launch : Launch)
  /-- DELETE_ALL (42_protocol_commands.md R135). -/
  | deleteAll (parameter : Word32) (launch : Launch)
  /-- IDENTIFY (42_protocol_commands.md R136). -/
  | identify (parameter : Word32) (launch : Launch)
  /-- CAPTURE_FINGER (42_protocol_commands.md R137); the parameter is the quality, any 32-bit value. -/
  | captureFinger (quality : Word32) (launch : Launch)
deriving DecidableEq, Repr

end Sys2Proof
end

