-- ==== Sys2Proof/WellFormed.lean ====
section
/-!
DEFINITION. Which instructions follow the parameter conventions of 30_encoding.md R85.
The block enforces none of them (R86): exec runs every instruction, well-formed or not.
-/
namespace Sys2Proof

/-- The slot of DELETE_ID: 0 to 199 (30_encoding.md R84). -/
def slotOk (slot : Word32) : Bool := decide (slot.toNat ≤ 199)

/-- The slot of ENROLL_START: 0 to 199, or 0xFFFFFFFF for automatic assignment (30_encoding.md R84, R85). -/
def enrollSlotOk (slot : Word32) : Bool := slotOk slot || slot == 0xFFFFFFFF#32

/-- The parameter of a command for which the source gives none (30_encoding.md R85). -/
def noParameterOk (parameter : Word32) : Bool := parameter == 0#32

/-- The instruction follows the parameter column of 30_encoding.md R84. -/
def Instr.wellFormed : Instr → Bool
  | .exchange _ => true
  | .recvData _ => true
  | .sendCmd _ => true
  | .recvCmd _ => true
  | .openCmd p _ => noParameterOk p
  | .closeCmd p _ => noParameterOk p
  | .ledOn _ => true
  | .ledOff _ => true
  | .enrollStart slot _ => enrollSlotOk slot
  | .enroll1 p _ => noParameterOk p
  | .enroll2 p _ => noParameterOk p
  | .enroll3 p _ => noParameterOk p
  | .isPressFinger p _ => noParameterOk p
  | .deleteId slot _ => slotOk slot
  | .deleteAll p _ => noParameterOk p
  | .identify p _ => noParameterOk p
  | .captureFinger _ _ => true

end Sys2Proof
end

