-- ==== Sys2Proof/Decode.lean ====
section
/-!
DEFINITION. Decoding and encoding of host actions (30_encoding.md R79 to R86), with the byte-order and bit-field
helpers both use.

An instruction's bytes (DESIGN CHOICE, log 3): in format CTRL, the four bytes of the CTRL word, least significant first;
in format CMD_PACKET, opcode (2 bytes), parameter (4 bytes) and launch word (4 bytes), each least significant first. The launch
word is CTRL's with START taken as 1, so that launch word 0 is an EXCHANGE with policy bits 0 (30_encoding.md R90).
-/
namespace Sys2Proof
open Machine

/-! ### Byte order (00_scope.md R11, 20_memory.md R45) -/

/-- `bytesLE(v, n)`: the `n` bytes of `v`, least significant first. -/
def bytesLE (v : Nat) : Nat → List Byte
  | 0 => []
  | n + 1 => BitVec.ofNat 8 v :: bytesLE (v / 256) n

/-- The little-endian value of a byte sequence. -/
def leValue : List Byte → Nat
  | [] => 0
  | b :: bs => b.toNat + 256 * leValue bs

/-- `LE16(b0, b1)`. -/
def le16 (b0 b1 : Byte) : Word16 := BitVec.ofNat 16 (leValue [b0, b1])

/-- `LE32(b0, b1, b2, b3)`. -/
def le32 (b0 b1 b2 b3 : Byte) : Word32 := BitVec.ofNat 32 (leValue [b0, b1, b2, b3])

/-! ### The CTRL word (10_state.md R21, 30_encoding.md R79, R80) -/

/-- The value of CTRL.OP for a block operation. -/
def blockOpCode : BlockOp → Nat
  | .exchange => 0
  | .recvData => 1
  | .sendCmd => 2
  | .recvCmd => 3

/-- START, bit 0 of a CTRL word. -/
def ctrlStart (w : Word32) : Bool := w.getLsbD 0

/-- OP, bits 2:1 of a CTRL word. -/
def ctrlOp (w : Word32) : BlockOp :=
  match w.getLsbD 2, w.getLsbD 1 with
  | false, false => .exchange
  | false, true => .recvData
  | true, false => .sendCmd
  | true, true => .recvCmd

/-- VERIFY and TOFATAL, bits 3 and 4 of a CTRL word. -/
def ctrlPolicy (w : Word32) : Policy := { verify := w.getLsbD 3, toFatal := w.getLsbD 4 }

/-- The CTRL word with the given fields and reserved bits 0. -/
def ctrlWord (start : Bool) (op : BlockOp) (pol : Policy) : Word32 :=
  BitVec.ofNat 32
    (start.toNat + 2 * blockOpCode op + 8 * pol.verify.toNat + 16 * pol.toFatal.toNat)

/-- The block operation that carries a protocol command. -/
def launchOp (l : Launch) : BlockOp := if l.sendOnly then .sendCmd else .exchange

/-- The CTRL word a protocol command's launch writes (30_encoding.md R90 CALL; the opcode table's "launch"). -/
def launchWord (l : Launch) : Word32 := ctrlWord true (launchOp l) l.policy

/-! ### Decoding -/

/-- Why a host action or a byte sequence is no row of the opcode table. -/
inductive DecodeError where
  /-- The bytes are fewer or more than the format has. -/
  | wrongLength (n : Nat)
  /-- A CTRL word with START = 0: it launches nothing (30_encoding.md R81). -/
  | notALaunch
  /-- The launch word's OP is RECV_DATA or RECV_CMD, which send no command. -/
  | launchSendsNoCommand
  /-- Opcode 0x12 with a parameter other than 0 and 1: neither LED_ON nor LED_OFF (30_encoding.md R84). -/
  | ledParameter (parameter : Word32)
  /-- An opcode that is not in 30_encoding.md R84; the block still carries it (R86). -/
  | unlistedOpcode (opcode : Word16)
deriving DecidableEq, Repr

/-- The block operation a CTRL word launches. -/
def blockInstr (op : BlockOp) (pol : Policy) : Instr :=
  match op with
  | .exchange => .exchange pol
  | .recvData => .recvData pol
  | .sendCmd => .sendCmd pol
  | .recvCmd => .recvCmd pol

/-- The launch a launch word describes; none where its OP sends no command. -/
def launchOf (w : Word32) : Option Launch :=
  match ctrlOp w with
  | .exchange => some { sendOnly := false, policy := ctrlPolicy w }
  | .sendCmd => some { sendOnly := true, policy := ctrlPolicy w }
  | .recvData => none
  | .recvCmd => none

/-- The protocol command with this opcode and parameter (30_encoding.md R84). -/
def commandInstr (opcode : Word16) (parameter : Word32) (l : Launch) : Except DecodeError Instr :=
  match opcode.toNat with
  | 0x01 => .ok (.openCmd parameter l)
  | 0x02 => .ok (.closeCmd parameter l)
  | 0x12 =>
    match parameter.toNat with
    | 0 => .ok (.ledOff l)
    | 1 => .ok (.ledOn l)
    | _ => .error (.ledParameter parameter)
  | 0x22 => .ok (.enrollStart parameter l)
  | 0x23 => .ok (.enroll1 parameter l)
  | 0x24 => .ok (.enroll2 parameter l)
  | 0x25 => .ok (.enroll3 parameter l)
  | 0x26 => .ok (.isPressFinger parameter l)
  | 0x40 => .ok (.deleteId parameter l)
  | 0x41 => .ok (.deleteAll parameter l)
  | 0x51 => .ok (.identify parameter l)
  | 0x60 => .ok (.captureFinger parameter l)
  | _ => .error (.unlistedOpcode opcode)

/-- The instruction a host action is, or why it is none. -/
def decodeAction : HostAction → Except DecodeError Instr
  | .ctrl w => if ctrlStart w then .ok (blockInstr (ctrlOp w) (ctrlPolicy w)) else .error .notALaunch
  | .command opcode parameter launch =>
    match launchOf launch with
    | some l => commandInstr opcode parameter l
    | none => .error .launchSendsNoCommand

/-- The host action whose bytes these are (DESIGN CHOICE, log 3). -/
def actionOfBytes : Format → List Byte → Except DecodeError HostAction
  | .ctrl, [b0, b1, b2, b3] => .ok (.ctrl (le32 b0 b1 b2 b3))
  | .cmdPacket, [o0, o1, p0, p1, p2, p3, l0, l1, l2, l3] =>
    .ok (.command (le16 o0 o1) (le32 p0 p1 p2 p3) (le32 l0 l1 l2 l3))
  | .ctrl, bs => .error (.wrongLength bs.length)
  | .cmdPacket, bs => .error (.wrongLength bs.length)

/-- The decoder, total on any bytes. -/
def decode (f : Format) (bs : List Byte) : Except DecodeError Instr :=
  match actionOfBytes f bs with
  | .ok a => decodeAction a
  | .error e => .error e

/-! ### The opcode table's own numbering of an instruction's bits -/

/-- The number of bytes of an instruction in a format. -/
def formatLength : Format → Nat
  | .ctrl => 4
  | .cmdPacket => 10

/-- The format of a table row of `nbits` bits (DESIGN CHOICE, log 18): CTRL rows fix bits 2:0 of a 32-bit word
(8 bits in whole bytes), CMD_PACKET rows fix the 16-bit opcode, which the parameter (48 bits) and the launch word (80 bits) follow. -/
def tableFormat (nbits : Nat) : Option Format :=
  match nbits with
  | 8 => some .ctrl
  | 32 => some .ctrl
  | 16 => some .cmdPacket
  | 48 => some .cmdPacket
  | 80 => some .cmdPacket
  | _ => none

/-- The instruction's bytes for a table word of `nbits` bits; every bit above them is 0. -/
def tableBytes (f : Format) (nbits w : Nat) : List Byte := bytesLE (w % 2 ^ nbits) (formatLength f)

/-- The instruction the decoder reads from a word of spec/opcode_table.json. -/
def decodeTableWord (nbits w : Nat) : Option Instr :=
  match tableFormat nbits with
  | some f =>
    match decode f (tableBytes f nbits w) with
    | .ok i => some i
    | .error _ => none
  | none => none

/-! ### Encoding -/

/-- The opcode of a protocol command (30_encoding.md R84), none for a block operation. -/
def Instr.opcode : Instr → Option Word16
  | .exchange _ => none
  | .recvData _ => none
  | .sendCmd _ => none
  | .recvCmd _ => none
  | .openCmd _ _ => some 0x0001#16
  | .closeCmd _ _ => some 0x0002#16
  | .ledOn _ => some 0x0012#16
  | .ledOff _ => some 0x0012#16
  | .enrollStart _ _ => some 0x0022#16
  | .enroll1 _ _ => some 0x0023#16
  | .enroll2 _ _ => some 0x0024#16
  | .enroll3 _ _ => some 0x0025#16
  | .isPressFinger _ _ => some 0x0026#16
  | .deleteId _ _ => some 0x0040#16
  | .deleteAll _ _ => some 0x0041#16
  | .identify _ _ => some 0x0051#16
  | .captureFinger _ _ => some 0x0060#16

/-- The host action an instruction is. -/
def encode : Instr → HostAction
  | .exchange pol => .ctrl (ctrlWord true .exchange pol)
  | .recvData pol => .ctrl (ctrlWord true .recvData pol)
  | .sendCmd pol => .ctrl (ctrlWord true .sendCmd pol)
  | .recvCmd pol => .ctrl (ctrlWord true .recvCmd pol)
  | .openCmd p l => .command 0x0001#16 p (launchWord l)
  | .closeCmd p l => .command 0x0002#16 p (launchWord l)
  | .ledOn l => .command 0x0012#16 1#32 (launchWord l)
  | .ledOff l => .command 0x0012#16 0#32 (launchWord l)
  | .enrollStart slot l => .command 0x0022#16 slot (launchWord l)
  | .enroll1 p l => .command 0x0023#16 p (launchWord l)
  | .enroll2 p l => .command 0x0024#16 p (launchWord l)
  | .enroll3 p l => .command 0x0025#16 p (launchWord l)
  | .isPressFinger p l => .command 0x0026#16 p (launchWord l)
  | .deleteId slot l => .command 0x0040#16 slot (launchWord l)
  | .deleteAll p l => .command 0x0041#16 p (launchWord l)
  | .identify p l => .command 0x0051#16 p (launchWord l)
  | .captureFinger q l => .command 0x0060#16 q (launchWord l)

/-- The format a host action is written in. -/
def actionFormat : HostAction → Format
  | .ctrl _ => .ctrl
  | .command _ _ _ => .cmdPacket

/-- The bytes of a host action. -/
def actionBytes : HostAction → List Byte
  | .ctrl w => bytesLE w.toNat 4
  | .command opcode parameter launch =>
    bytesLE opcode.toNat 2 ++ bytesLE parameter.toNat 4 ++ bytesLE launch.toNat 4

/-- The format of an instruction. -/
def Instr.format (i : Instr) : Format := actionFormat (encode i)

/-- The words of an instruction, as bytes. -/
def encodeBytes (i : Instr) : List Byte := actionBytes (encode i)

end Sys2Proof
end

