-- ==== Sys2Proof/Machine/Codec.lean ====
section
/-!
DEFINITION. The packet codec: pure functions on bytes (40_codec.md R91, R95, R97, R103; 30_encoding.md R67 to R76).
-/
namespace Sys2Proof.Machine

/-- The exact sum of a byte sequence. -/
def byteSum : List Byte → Nat
  | [] => 0
  | b :: bs => b.toNat + byteSum bs

/-- `checksum_of` (40_codec.md R91): the sum of the bytes, truncated to 16 bits. -/
def checksumOf (bs : List Byte) : Word16 := BitVec.ofNat 16 (byteSum bs)

/-- The 10 checksummed bytes of a Command packet (40_codec.md R95, 30_encoding.md R68). -/
def commandBody (opcode : Word16) (parameter : Word32) : List Byte :=
  Config.cmdMagic ++ bytesLE Config.deviceId 2 ++ bytesLE parameter.toNat 4 ++ bytesLE opcode.toNat 2

/-- `encode_command` (40_codec.md R95). -/
def encodeCommand (opcode : Word16) (parameter : Word32) : List Byte :=
  commandBody opcode parameter ++ bytesLE (checksumOf (commandBody opcode parameter)).toNat 2

/-- Byte `k` of a packet. -/
def packetByte (p : List Byte) (k : Nat) : Byte := p.getD k 0#8

/-- The parameter field of a Command/Acknowledge packet (30_encoding.md R69). -/
def packetParameter (p : List Byte) : Word32 :=
  le32 (packetByte p 4) (packetByte p 5) (packetByte p 6) (packetByte p 7)

/-- The command field of a Command/Acknowledge packet (30_encoding.md R69). -/
def packetCommand (p : List Byte) : Word16 := le16 (packetByte p 8) (packetByte p 9)

/-- `decode_command` (40_codec.md R97). -/
def decodeCommand (p : List Byte) : Word32 × Word16 := (packetParameter p, packetCommand p)

/-- The checksum field of a packet: its last two bytes (30_encoding.md R68, R70). -/
def packetChecksum (p : List Byte) : Word16 :=
  le16 (packetByte p (p.length - 2)) (packetByte p (p.length - 1))

/-- The checksum computed over the bytes that precede the checksum field (30_encoding.md R76). -/
def packetSum (p : List Byte) : Word16 := checksumOf (p.take (p.length - 2))

/-- A Data packet with the given payload, as the Module builds one (30_encoding.md R70); deviceId 0x0001 (R71). -/
def dataPacket (payload : List Byte) : List Byte :=
  let body := Config.dataMagic ++ bytesLE Config.deviceId 2 ++ payload
  body ++ bytesLE (checksumOf body).toNat 2

end Sys2Proof.Machine
end

