-- ==== Sys2Proof/Machine/State.lean ====
section
/-!
DEFINITION. The machine's state as plain data (10_state.md), the reasons a step can stop, and the state after reset
(10_state.md R43).
-/
namespace Sys2Proof.Machine

/-- The Engine's state (10_state.md R17). -/
inductive Eng where
  /-- No operation in progress. -/
  | idle
  /-- Sending the 12 bytes of TX_BUF. -/
  | send
  /-- Collecting reply bytes. -/
  | recv
  /-- Waiting after an empty poll. -/
  | sleep
  /-- A timeout occurred with TOFATAL = 1. -/
  | halted
deriving DecidableEq, Repr

/-- The stored fields of CTRL (10_state.md R21); START is write-only and reads 0. -/
structure Ctrl where
  op : BlockOp
  verify : Bool
  toFatal : Bool
deriving DecidableEq, Repr

/-- The stored bits of STATUS (10_state.md R23); BUSY, HALTED and ACK are derived. -/
structure Flags where
  done : Bool
  timeout : Bool
  csumErr : Bool
  busyErr : Bool
deriving DecidableEq, Repr

/-- INT_EN's bits 1 to 4 (10_state.md R35). -/
structure IntEn where
  doneEn : Bool
  timeoutEn : Bool
  csumErrEn : Bool
  busyErrEn : Bool
deriving DecidableEq, Repr

/-- The written bytes of TX_BUF and RX_BUF, keyed by window offset (20_memory.md R46, R49). -/
abbrev Memory := List Host.Cell

/-- What a bus access answered the host (20_memory.md R50 to R52). -/
inductive BusResponse where
  /-- The host has made no access yet. -/
  | nothing
  /-- The address is outside the block's window: the block is not selected. -/
  | notSelected
  /-- The OKAY response of a write. -/
  | okay
  /-- The ERROR response. -/
  | error
  /-- The data of a read. -/
  | data (v : Word32)
deriving DecidableEq, Repr

/-- The Host agent: its program (30_encoding.md R89), where it is in it, its variables, its last bus response, and the
writes still to come of a host action it has begun, oldest first (20_memory.md R59; 42_protocol_commands.md R124). -/
structure HostAgent where
  bus : BusResponse
  pending : List (Reg × Word32)
  program : List HostLine
  pc : Nat
  vars : List (Nat × Int)
deriving DecidableEq, Repr

/-- The result of `call(op, p)` (43_host_sequences.md R140). -/
inductive CallResult where
  | reply (ack : Word16) (parameter : Word32)
  | timeout
  | checksumMismatch
  | rejected
deriving DecidableEq, Repr

/-- What a host sequence returns (43_host_sequences.md R140 to R150). -/
inductive SeqResult where
  | reply (ack : Word16) (parameter : Word32)
  | timeout
  | checksumMismatch
  | rejected
  | nack (reason : Word32)
  | duplicateFinger
  | enrollRetryable
  | captured
  | captureTimeout
  | enrolled
  | sinkFailure
  | matched (slot : Word32)
  | noMatch
  | pressed (yes : Bool)
deriving DecidableEq, Repr

/-- What follows a successful capture (43_host_sequences.md R142, R143, R148). -/
inductive AfterCapture where
  /-- `capture()` was the task itself. -/
  | stop
  /-- Enroll step `k`. -/
  | enrollStep (k : Nat)
  /-- IDENTIFY. -/
  | identify
deriving DecidableEq, Repr

/-- Why the driver makes a call: what it does with the result. -/
inductive Purpose where
  | plain
  | enrollStart
  /-- Capture attempt `n` (1 to 500). -/
  | capture (n : Nat) (after : AfterCapture)
  | enrollStep (k : Nat)
  | identify
  | presence
deriving DecidableEq, Repr

/-- Where the driver is in `call` (R140) or in `retrieve_template` (R144): the bus access it does next. -/
inductive DriverPhase where
  | off
  | writeCmd (op : Word16) (p : Word32) (why : Purpose)
  | writeParam (p : Word32) (why : Purpose)
  | writeCtrl (why : Purpose)
  | wait (why : Purpose)
  | readStatus (why : Purpose)
  | readAck (st : Word32) (why : Purpose)
  | readParam (st : Word32) (ack : Word16) (why : Purpose)
  | dataCtrl
  | dataWait
  | dataStatus
  | dataCount (st : Word32)
  /-- Reading the template byte by byte; `got` is what is read so far. -/
  | readTemplate (got : List Byte)
  /-- The template is with the sink. -/
  | sink (template : List Byte)
  | finished (r : SeqResult)
deriving DecidableEq, Repr

/-- The host's reference driver (43_host_sequences.md): host software, not block state. -/
structure Driver where
  phase : DriverPhase
  quality : Word32
  policy : Policy
deriving DecidableEq, Repr

/-- The platform's OPEN parameters (92_eei_decisions.md D3, D28). No step changes them. -/
structure Platform where
  /-- `FRAMER_BASE`. -/
  framerBase : Nat
  /-- `RX_FIFO_DEPTH`; none: no bound. -/
  rxFifoDepth : Option Nat
  /-- When the RX FIFO is full, the Module waits (true) or its byte is dropped (false). -/
  moduleWaits : Bool
deriving DecidableEq, Repr

/-- The machine's state: the block (10_state.md R17 to R38), its environment (R40, R41), the host's software, and the
model's own fields. -/
structure State where
  /-- The Engine state (R17). -/
  eng : Eng
  /-- TX_BUF bytes already accepted in this SEND phase (R18). -/
  txIdx : Nat
  /-- Ticks remaining in this SLEEP (R19). -/
  sleepLeft : Word16
  /-- CTRL (R21). -/
  ctrl : Ctrl
  /-- STATUS's stored bits (R23). -/
  flags : Flags
  /-- CMD (R25). -/
  cmd : Word16
  /-- PARAM (R26). -/
  param : Word32
  /-- LAST_PARAM (R27). -/
  lastParam : Word32
  /-- LAST_ACK (R28). -/
  lastAck : Word16
  /-- POLL_INTERVAL (R29). -/
  pollInterval : Word16
  /-- MAX_POLLS (R30). -/
  maxPolls : Word16
  /-- STALL_COUNT (R31). -/
  stallCount : Word16
  /-- RX_COUNT (R32). -/
  rxCount : BitVec 10
  /-- RX_CSUM (R33). -/
  rxCsum : Word32
  /-- TX_CSUM (R34). -/
  txCsum : Word16
  /-- INT_EN (R35). -/
  intEn : IntEn
  /-- TX_BUF (R37) and RX_BUF (R38). -/
  mem : Memory
  /-- The Transport's RX FIFO, oldest byte first (R40). -/
  rxFifo : List Byte
  /-- The Transport's TX stream, first byte first (R41). -/
  txStream : List Byte
  /-- Bytes the Module holds back while the RX FIFO is full (92 D28). -/
  moduleWaiting : List Byte
  /-- The platform's parameters. -/
  platform : Platform
  /-- The Host agent. -/
  host : HostAgent
  /-- The host's reference driver. -/
  driver : Driver
  /-- MODEL: the agents' pending events, next first (DESIGN CHOICE, log 1). -/
  inputs : List Event
  /-- MODEL: the counter of free events (DESIGN CHOICE, log 1). -/
  sched : Nat
  /-- MODEL: the counter of draws for unwritten buffer bytes (DESIGN CHOICE, log 6). -/
  draws : Nat
deriving DecidableEq, Repr

/-- The reasons a step could fault: none. The block raises no fault that stops the host; Timeout, ChecksumMismatch and
BusyReject are outcomes recorded in STATUS, and HALTED is an Engine with no step (60_exceptions.md R169). -/
inductive Fault where
deriving DecidableEq, Repr

/-- The reasons a step could be refused. -/
inductive Refusal where
  /-- Raised by exec alone, for an instruction without a meaning; no arm raises it now. Safe: the machine stops. -/
  | notModelled (mnemonic : String)
deriving DecidableEq, Repr

/-- The machine right after reset (10_state.md R43): the block at its reset values, nothing in the Transport, nothing
loaded in the host (DESIGN CHOICE, logs 1, 4, 6 to 10, 16, 17). -/
def State.reset : State where
  eng := .idle
  txIdx := 0
  sleepLeft := 0#16
  ctrl := { op := .exchange, verify := false, toFatal := false }
  flags := { done := false, timeout := false, csumErr := false, busyErr := false }
  cmd := 0#16
  param := 0#32
  lastParam := 0#32
  lastAck := 0#16
  pollInterval := 10#16
  maxPolls := 300#16
  stallCount := 0#16
  rxCount := 0#10
  rxCsum := 0#32
  txCsum := 0#16
  intEn := { doneEn := false, timeoutEn := false, csumErrEn := false, busyErrEn := false }
  mem := []
  rxFifo := []
  txStream := []
  moduleWaiting := []
  platform := { framerBase := 0, rxFifoDepth := none, moduleWaits := false }
  host := { bus := .nothing, pending := [], program := [], pc := 0, vars := [] }
  driver := { phase := .off, quality := 0#32, policy := { verify := false, toFatal := false } }
  inputs := []
  sched := 0
  draws := 0

end Sys2Proof.Machine
end

