-- ==== Sys2Proof/Machine/Flags.lean ====
section
/-!
DEFINITION. The derived status bits, the STATUS, CTRL and INT_EN words, write-1-to-clear and the interrupt output
(10_state.md R21, R23, R24, R35; 60_exceptions.md R159, R161).
-/
namespace Sys2Proof.Machine

/-- STATUS.BUSY (10_state.md R23). -/
def State.busy (s : State) : Bool := s.eng == .send || s.eng == .recv || s.eng == .sleep

/-- STATUS.HALTED (10_state.md R23). -/
def State.halted (s : State) : Bool := s.eng == .halted

/-- STATUS.ACK: LAST_ACK is 0x0030 (10_state.md R24, 30_encoding.md R87). -/
def State.ack (s : State) : Bool := s.lastAck == Config.ackCode

/-- Locked: SEND, RECV, SLEEP or HALTED (20_memory.md R56). -/
def State.locked (s : State) : Bool := s.busy || s.halted

/-- STATUS as the host reads it (10_state.md R23); bits 31:7 read 0. -/
def State.statusWord (s : State) : Word32 :=
  BitVec.ofNat 32
    (s.busy.toNat + 2 * s.flags.done.toNat + 4 * s.flags.timeout.toNat + 8 * s.flags.csumErr.toNat
      + 16 * s.flags.busyErr.toNat + 32 * s.halted.toNat + 64 * s.ack.toNat)

/-- Exactly one of DONE, TIMEOUT and CSUMERR is set (70_reset_and_hazards.md R175). -/
def oneOutcome (f : Flags) : Bool :=
  (f.done && !f.timeout && !f.csumErr) || (!f.done && f.timeout && !f.csumErr) || (!f.done && !f.timeout && f.csumErr)

/-- After a launch: the operation has ended, with exactly one outcome, or in HALTED (70_reset_and_hazards.md R175). -/
def State.operationEnded (s : State) : Bool := !s.busy && (oneOutcome s.flags || s.halted)

/-- A host write of `v` to STATUS (20_memory.md R54): each W1C bit written 1 is cleared, all others stay. -/
def clearFlags (v : Word32) (f : Flags) : Flags where
  done := f.done && !v.getLsbD 1
  timeout := f.timeout && !v.getLsbD 2
  csumErr := f.csumErr && !v.getLsbD 3
  busyErr := f.busyErr && !v.getLsbD 4

/-- The flags after a launch: DONE, TIMEOUT and CSUMERR cleared, BUSYERR kept (41_link_operations.md R105). -/
def launchFlags (f : Flags) : Flags := { f with done := false, timeout := false, csumErr := false }

/-- INT_EN as the host reads it (10_state.md R35); bit 0 and bits 31:5 read 0. -/
def intEnWord (e : IntEn) : Word32 :=
  BitVec.ofNat 32
    (2 * e.doneEn.toNat + 4 * e.timeoutEn.toNat + 8 * e.csumErrEn.toNat + 16 * e.busyErrEn.toNat)

/-- INT_EN after a host write of `v`. -/
def intEnOf (v : Word32) : IntEn where
  doneEn := v.getLsbD 1
  timeoutEn := v.getLsbD 2
  csumErrEn := v.getLsbD 3
  busyErrEn := v.getLsbD 4

/-- CTRL after a host write of `v` (10_state.md R21). -/
def ctrlOf (v : Word32) : Ctrl where
  op := ctrlOp v
  verify := (ctrlPolicy v).verify
  toFatal := (ctrlPolicy v).toFatal

/-- CTRL as the host reads it: START and bits 31:5 read 0. -/
def ctrlReadWord (c : Ctrl) : Word32 := ctrlWord false c.op { verify := c.verify, toFatal := c.toFatal }

/-- The interrupt output (60_exceptions.md R161). -/
def State.irq (s : State) : Bool :=
  (s.flags.done && s.intEn.doneEn) || (s.flags.timeout && s.intEn.timeoutEn)
    || (s.flags.csumErr && s.intEn.csumErrEn) || (s.flags.busyErr && s.intEn.busyErrEn)

end Sys2Proof.Machine
end

