-- ==== Sys2Proof/Machine/Operands.lean ====
section
/-!
DEFINITION. How a bus access names its operand: the register map, the buffer windows, and the alignment and size rules
(20_memory.md R44 to R52).
-/
namespace Sys2Proof.Machine

/-- The offset of a register (20_memory.md R46). -/
def regOffset : Reg → Nat
  | .ctrl => 0x000
  | .status => 0x004
  | .cmd => 0x008
  | .param => 0x00C
  | .lastParam => 0x010
  | .lastAck => 0x014
  | .pollInterval => 0x018
  | .maxPolls => 0x01C
  | .stallCount => 0x020
  | .rxCount => 0x024
  | .rxCsum => 0x028
  | .txCsum => 0x02C
  | .intEn => 0x030
  | .rxAvail => 0x034

/-- The register at an offset (20_memory.md R46). -/
def regAt (off : Nat) : Option Reg :=
  match off with
  | 0x000 => some .ctrl
  | 0x004 => some .status
  | 0x008 => some .cmd
  | 0x00C => some .param
  | 0x010 => some .lastParam
  | 0x014 => some .lastAck
  | 0x018 => some .pollInterval
  | 0x01C => some .maxPolls
  | 0x020 => some .stallCount
  | 0x024 => some .rxCount
  | 0x028 => some .rxCsum
  | 0x02C => some .txCsum
  | 0x030 => some .intEn
  | 0x034 => some .rxAvail
  | _ => none

/-- A register offset: 0x000 to 0x037 (20_memory.md R48). -/
def isRegister (off : Nat) : Bool := decide (off < 0x038)

/-- A buffer window offset, pads included (20_memory.md R49). -/
def isWindow (off : Nat) : Bool :=
  (decide (0x100 ≤ off) && decide (off < 0x110)) || (decide (0x200 ≤ off) && decide (off < 0x400))

/-- An offset of a byte of TX_BUF or RX_BUF themselves, pads excluded (20_memory.md R46). -/
def isBuffer (off : Nat) : Bool :=
  (decide (Config.txBase ≤ off) && decide (off < Config.txBase + Config.cmdPktLen))
    || (decide (Config.rxBase ≤ off) && decide (off < Config.rxBase + Config.dataPktLen))

/-- A mapped offset (20_memory.md R46, R52). -/
def mapped (off : Nat) : Bool := isRegister off || isWindow off

/-- The access sizes of the bus (20_memory.md R50, R52). -/
def sizeOk (n : Nat) : Bool := n == 1 || n == 2 || n == 4

/-- The access gets no ERROR response (20_memory.md R48 to R52). -/
def accessOk (off n : Nat) : Bool :=
  sizeOk n && mapped off && off % n == 0 && (!isRegister off || n == 4)

/-- The registers a locked block refuses to write (20_memory.md R56). -/
def lockable : Reg → Bool
  | .ctrl => true
  | .cmd => true
  | .param => true
  | .pollInterval => true
  | .maxPolls => true
  | .status => false
  | .lastParam => false
  | .lastAck => false
  | .stallCount => false
  | .rxCount => false
  | .rxCsum => false
  | .txCsum => false
  | .intEn => false
  | .rxAvail => false

/-- The window offset of a bus address, none outside the block's 4 KiB window (20_memory.md R44). -/
def windowOffset (base addr : Nat) : Option Nat :=
  if base ≤ addr ∧ addr < base + Config.windowSize then some (addr - base) else none

end Sys2Proof.Machine
end

