-- ==== Sys2Proof/Machine/Ops.lean ====
section
/-!
DEFINITION. The named operations over the buffers, the Transport, the errors and reset.
-/
namespace Sys2Proof.Machine

/-! ### The buffers (10_state.md R37, R38; DESIGN CHOICE, log 13) -/

/-- The byte written at an offset; none where nothing has been written. -/
def Memory.read : Memory → Nat → Option Byte
  | [], _ => none
  | c :: m, off => if c.1 = off then some c.2 else Memory.read m off

/-- Write one byte, keeping the offsets strictly rising. -/
def Memory.write : Memory → Nat → Byte → Memory
  | [], off, b => [(off, b)]
  | c :: m, off, b =>
    if off < c.1 then (off, b) :: c :: m
    else if c.1 = off then (off, b) :: m
    else c :: Memory.write m off b

/-- Write consecutive bytes from an offset on. -/
def Memory.writeAll : Memory → Nat → List Byte → Memory
  | m, _, [] => m
  | m, off, b :: bs => Memory.writeAll (Memory.write m off b) (off + 1) bs

/-- The canonical form: offsets strictly rising, each of a buffer byte. An unlisted byte has no value, so no entry
can equal what an unlisted byte reads as. -/
abbrev Memory.wf (m : Memory) : Prop :=
  m.Pairwise (fun c d => c.1 < d.1) ∧ ∀ c ∈ m, isBuffer c.1 = true

/-- A buffer byte as it reads now: what was written, or the current draw's free value (10_state.md R37, R38). -/
def State.bufByte (s : State) (off : Nat) : Byte :=
  (Memory.read s.mem off).getD (Config.freeByte s.draws off)

/-- `TX_BUF[i]`. -/
def State.txBuf (s : State) (i : Nat) : Byte := s.bufByte (Config.txBase + i)

/-- `RX_BUF[i]`. -/
def State.rxBuf (s : State) (i : Nat) : Byte := s.bufByte (Config.rxBase + i)

/-- `RX_BUF[i..i+n)`. -/
def State.rxBytes (s : State) (i n : Nat) : List Byte := (List.range n).map (fun k => s.rxBuf (i + k))

/-- `TX_BUF[0..12)`. -/
def State.txBytes (s : State) : List Byte := (List.range Config.cmdPktLen).map s.txBuf

/-- The template, `RX_BUF[4..502)` (30_encoding.md R73). -/
def State.template (s : State) : List Byte := s.rxBytes 4 Config.dataPayloadLen

/-- A byte of a buffer window: the buffer's, or 0 in the pad (20_memory.md R49). -/
def State.windowByte (s : State) (off : Nat) : Byte := if isBuffer off then s.bufByte off else 0#8

/-- The Engine or the Transport has stepped: an unwritten byte may read differently from now on
(DESIGN CHOICE, log 6). -/
def State.nextDraw (s : State) : State := { s with draws := s.draws + 1 }

/-- Store a received byte at RX_BUF[k]; RX_BUF has no byte 504 or above (DESIGN CHOICE, log 11). -/
def State.storeRx (s : State) (k : Nat) (b : Byte) : State :=
  if k < Config.dataPktLen then { s with mem := Memory.write s.mem (Config.rxBase + k) b } else s

/-- Encode CMD and PARAM into TX_BUF and TX_CSUM (40_codec.md R96). -/
def State.encodeTx (s : State) : State :=
  { s with
    mem := Memory.writeAll s.mem Config.txBase (encodeCommand s.cmd s.param)
    txCsum := packetChecksum (encodeCommand s.cmd s.param) }

/-! ### The Transport and the Module (00_scope.md R8; 10_state.md R40, R41) -/

/-- `TxPush(b)`: the Transport accepts one byte. -/
def State.txPush (s : State) (b : Byte) : State := { s with txStream := s.txStream ++ [b] }

/-- `RxAvail()`. -/
def State.rxAvailCount (s : State) : Nat := s.rxFifo.length

/-- The RX FIFO has room for a byte (92_eei_decisions.md D28). -/
def State.fifoHasRoom (s : State) : Bool :=
  match s.platform.rxFifoDepth with
  | none => true
  | some d => decide (s.rxFifo.length < d)

/-- The Module appends a byte to the RX FIFO (10_state.md R40). -/
def State.fifoAppend (s : State) (b : Byte) : State := { s with rxFifo := s.rxFifo ++ [b] }

/-- A byte the Module holds back moves into the RX FIFO if there is room (DESIGN CHOICE, log 7). -/
def State.moduleResume (s : State) : State :=
  match s.moduleWaiting with
  | [] => s
  | b :: rest => if s.fifoHasRoom then ({ s with moduleWaiting := rest }.fifoAppend b).nextDraw else s

/-- The Module sends a byte: into the RX FIFO in its turn; with the FIFO full it waits or is dropped
(DESIGN CHOICE, log 7). -/
def State.moduleByte (s : State) (b : Byte) : State :=
  if s.moduleWaiting.isEmpty && s.fifoHasRoom then (s.fifoAppend b).nextDraw
  else if s.platform.moduleWaits then { s with moduleWaiting := s.moduleWaiting ++ [b] }.nextDraw
  else s.nextDraw

/-- The platform resets the Transport: its RX FIFO is drained (70_reset_and_hazards.md R178). The TX stream, the bytes the
Module holds back and the block stay (DESIGN CHOICE, log 21). While an operation is in progress the Engine alone uses the
Transport (20_memory.md R65), so nothing happens then. -/
def State.transportReset (s : State) : State := if s.busy then s else { s with rxFifo := [] }.nextDraw

/-! ### Errors (60_exceptions.md R152 to R158) -/

/-- The three error kinds (60_exceptions.md R152). -/
inductive BlockError where
  | timeout | checksumMismatch | busyReject
deriving DecidableEq, Repr

/-- The cause code of an error: the bit number of its STATUS flag (60_exceptions.md R152). -/
def errorCode : BlockError → Nat
  | .timeout => 2
  | .checksumMismatch => 3
  | .busyReject => 4

/-- The flags with an error's STATUS bit set (60_exceptions.md R152). -/
def errorFlags (e : BlockError) (f : Flags) : Flags :=
  match e with
  | .timeout => { f with timeout := true }
  | .checksumMismatch => { f with csumErr := true }
  | .busyReject => { f with busyErr := true }

/-- Where a Timeout leaves the Engine: HALTED with TOFATAL = 1, IDLE otherwise (60_exceptions.md R158). -/
def timeoutEng (toFatal : Bool) : Eng :=
  match toFatal with
  | true => .halted
  | false => .idle

/-- `raise <Error>`: set its STATUS bit and end the operation (60_exceptions.md R156): HALTED after a Timeout with
TOFATAL = 1 (R158), IDLE otherwise; a BusyReject ends nothing (R157). Nothing else is saved or changed. -/
def State.raise (s : State) (e : BlockError) : State :=
  match e with
  | .timeout => { s with flags := errorFlags .timeout s.flags, eng := timeoutEng s.ctrl.toFatal }
  | .checksumMismatch => { s with flags := errorFlags .checksumMismatch s.flags, eng := .idle }
  | .busyReject => { s with flags := errorFlags .busyReject s.flags }

/-- The return from an error: the host clears W1C bits of STATUS (60_exceptions.md R159); HALTED stays. -/
def State.clearStatus (s : State) (v : Word32) : State := { s with flags := clearFlags v s.flags }

/-- Successful completion of an operation: DONE set, Engine IDLE (41_link_operations.md R111, R117). -/
def State.finish (s : State) : State := { s with flags := { s.flags with done := true }, eng := .idle }

/-! ### Reset and the host's answers -/

/-- The reset input is asserted (70_reset_and_hazards.md R170, R171): all block state to its reset value, the buffers
unwritten; the Transport, the Module, the platform and the host are not touched. -/
def State.assertReset (s : State) : State :=
  { State.reset with
    rxFifo := s.rxFifo
    txStream := s.txStream
    moduleWaiting := s.moduleWaiting
    platform := s.platform
    host := s.host
    driver := s.driver
    inputs := s.inputs
    sched := s.sched
    draws := s.draws + 1 }

/-- The host sees the response of its bus access. -/
def State.answer (s : State) (r : BusResponse) : State := { s with host := { s.host with bus := r } }

end Sys2Proof.Machine
end

