-- ==== Sys2Proof/Machine/Bus.lean ====
section
/-!
DEFINITION. Host bus reads and writes (20_memory.md R50, R51), and the launch a CTRL write makes
(41_link_operations.md R105).
-/
namespace Sys2Proof.Machine

/-- A register's value as the host reads it; reserved bits read 0 (10_state.md R21 to R36). -/
def State.regValue (s : State) : Reg → Word32
  | .ctrl => ctrlReadWord s.ctrl
  | .status => s.statusWord
  | .cmd => s.cmd.setWidth 32
  | .param => s.param
  | .lastParam => s.lastParam
  | .lastAck => s.lastAck.setWidth 32
  | .pollInterval => s.pollInterval.setWidth 32
  | .maxPolls => s.maxPolls.setWidth 32
  | .stallCount => s.stallCount.setWidth 32
  | .rxCount => s.rxCount.setWidth 32
  | .rxCsum => s.rxCsum
  | .txCsum => s.txCsum.setWidth 32
  | .intEn => intEnWord s.intEn
  | .rxAvail => BitVec.ofNat 32 (min s.rxAvailCount 0xFFFF)

/-- `n` window bytes from an offset on, assembled little-endian and zero-extended (20_memory.md R47, R49). -/
def State.windowValue (s : State) (off n : Nat) : Word32 :=
  BitVec.ofNat 32 (leValue ((List.range n).map (fun k => s.windowByte (off + k))))

/-- `MemRead(off, n)` (20_memory.md R50): the response; no state changes. -/
def State.memRead (s : State) (off n : Nat) : BusResponse :=
  if accessOk off n then
    match regAt off with
    | some r => .data (s.regValue r)
    | none => .data (s.windowValue off n)
  else .error

/-- What every launch clears (41_link_operations.md R105): DONE, TIMEOUT, CSUMERR, STALL_COUNT and RX_COUNT. -/
def State.clearForLaunch (s : State) : State :=
  { s with flags := launchFlags s.flags, stallCount := 0#16, rxCount := 0#10 }

/-- A SEND phase starts: the packet is encoded and no byte of it is sent yet. -/
def State.startSend (s : State) : State := { s.encodeTx with txIdx := 0, eng := .send }

/-- A RECV phase starts. -/
def State.startRecv (s : State) : State := { s with eng := .recv }

/-- The first phase of the operation in CTRL.OP. -/
def State.startOp (s : State) : State :=
  match s.ctrl.op with
  | .exchange => s.startSend
  | .sendCmd => s.startSend
  | .recvData => s.startRecv
  | .recvCmd => s.startRecv

/-- The launch of the operation in CTRL.OP (41_link_operations.md R105). -/
def State.launch (s : State) : State := s.clearForLaunch.startOp

/-- CTRL's fields written with `v` (10_state.md R21). -/
def State.setCtrl (s : State) (v : Word32) : State := { s with ctrl := ctrlOf v }

/-- An accepted write of CTRL: its fields, and a launch if START is written 1 (20_memory.md R51). -/
def State.writeCtrl (s : State) (v : Word32) : State :=
  if ctrlStart v then (s.setCtrl v).launch else s.setCtrl v

/-- An accepted write of a register's RW and W1C fields; a read-only register ignores it (20_memory.md R51, R55). -/
def State.writeReg (s : State) (r : Reg) (v : Word32) : State :=
  match r with
  | .ctrl => s.writeCtrl v
  | .status => s.clearStatus v
  | .cmd => { s with cmd := v.setWidth 16 }
  | .param => { s with param := v }
  | .lastParam => s
  | .lastAck => s
  | .pollInterval => { s with pollInterval := v.setWidth 16 }
  | .maxPolls => { s with maxPolls := v.setWidth 16 }
  | .stallCount => s
  | .rxCount => s
  | .rxCsum => s
  | .txCsum => s
  | .intEn => { s with intEn := intEnOf v }
  | .rxAvail => s

/-- A write of a register under the lock rule (20_memory.md R56): a locked block refuses the lockable ones. -/
def State.regWrite (s : State) (r : Reg) (v : Word32) : State :=
  if s.locked && lockable r then s.raise .busyReject else s.writeReg r v

/-- `MemWrite(off, n, v)` (20_memory.md R51), the response in `host.bus`. -/
def State.memWrite (s : State) (off n : Nat) (v : Word32) : State :=
  if accessOk off n then
    match regAt off with
    | some r => (s.regWrite r v).answer .okay
    | none => s.answer .okay
  else s.answer .error

/-- A 32-bit write of a register at its offset: `WR REG, v` (30_encoding.md R89). -/
def State.wr (s : State) (r : Reg) (v : Word32) : State := s.memWrite (regOffset r) 4 v

/-- A bus read at an address (20_memory.md R44): the block answers inside its window only. -/
def State.busRead (s : State) (addr n : Nat) : State :=
  match windowOffset s.platform.framerBase addr with
  | some off => s.answer (s.memRead off n)
  | none => s.answer .notSelected

/-- A bus write at an address (20_memory.md R44). -/
def State.busWrite (s : State) (addr n : Nat) (v : Word32) : State :=
  match windowOffset s.platform.framerBase addr with
  | some off => s.memWrite off n v
  | none => s.answer .notSelected

/-- The host has begun an action: the writes `ws` are still to come (20_memory.md R59). -/
def State.pend (s : State) (ws : List (Reg × Word32)) : State :=
  { s with host := { s.host with pending := s.host.pending ++ ws } }

/-- The host's oldest pending write is made; with none pending nothing happens. -/
def State.hostWrite (s : State) : State :=
  match s.host.pending with
  | [] => s
  | w :: rest => { s with host := { s.host with pending := rest } }.wr w.1 w.2

/-- What follows the CMD write of a protocol command (42_protocol_commands.md R124): PARAM, then CTRL with START set and
the reserved bits 0 (30_encoding.md R79). -/
def commandWrites (parameter : Word32) (launch : Word32) : List (Reg × Word32) :=
  [(.param, parameter), (.ctrl, ctrlWord true (ctrlOp launch) (ctrlPolicy launch))]

/-- A protocol command begins (42_protocol_commands.md R124): CMD is written; PARAM and CTRL are the host's next writes,
each an atomic step of its own (20_memory.md R59; log 4). -/
def State.command (s : State) (opcode : Word16) (parameter : Word32) (launch : Word32) : State :=
  (s.wr .cmd (opcode.setWidth 32)).pend (commandWrites parameter launch)

/-- A host action: its first bus write, the others pending. -/
def State.perform (s : State) : HostAction → State
  | .ctrl w => s.wr .ctrl w
  | .command opcode parameter launch => s.command opcode parameter launch

end Sys2Proof.Machine
end

