-- ==== Sys2Proof/Machine/HostProgram.lean ====
section
/-!
DEFINITION. The Host agent running a program in the syntax of 30_encoding.md R89, one line a step, and the
pseudo-instructions of R90. Host software: it changes the block only through bus accesses.
-/
namespace Sys2Proof.Machine

/-! ### Host variables and expressions (unbounded integers) -/

/-- The value of a variable; a variable nothing has written is 0 (DESIGN CHOICE, log 16). -/
def varValue : List (Nat × Int) → Nat → Int
  | [], _ => 0
  | (y, v) :: vs, x => if y = x then v else varValue vs x

/-- Set a variable. -/
def setVar : List (Nat × Int) → Nat → Int → List (Nat × Int)
  | [], x, v => [(x, v)]
  | (y, w) :: vs, x, v => if y = x then (x, v) :: vs else (y, w) :: setVar vs x v

/-- Bitwise and of unbounded two's-complement integers. -/
def intAnd : Int → Int → Int
  | .ofNat m, .ofNat n => .ofNat (m &&& n)
  | .ofNat m, .negSucc n => .ofNat (m - (m &&& n))
  | .negSucc m, .ofNat n => .ofNat (n - (m &&& n))
  | .negSucc m, .negSucc n => .negSucc (m ||| n)

/-- Bitwise or of unbounded two's-complement integers. -/
def intOr : Int → Int → Int
  | .ofNat m, .ofNat n => .ofNat (m ||| n)
  | .ofNat m, .negSucc n => .negSucc (n - (m &&& n))
  | .negSucc m, .ofNat n => .negSucc (m - (m &&& n))
  | .negSucc m, .negSucc n => .negSucc (m &&& n)

/-- The value of a comparison: 1 where it holds, 0 where it does not (DESIGN CHOICE, log 16). -/
def boolValue (b : Bool) : Int := if b then 1 else 0

/-- The value of a host expression. -/
def evalExpr (vs : List (Nat × Int)) : HostExpr → Int
  | .lit n => n
  | .var x => varValue vs x
  | .add a b => evalExpr vs a + evalExpr vs b
  | .sub a b => evalExpr vs a - evalExpr vs b
  | .band a b => intAnd (evalExpr vs a) (evalExpr vs b)
  | .bor a b => intOr (evalExpr vs a) (evalExpr vs b)
  | .eq a b => boolValue (decide (evalExpr vs a = evalExpr vs b))
  | .ne a b => boolValue (decide (evalExpr vs a ≠ evalExpr vs b))
  | .lt a b => boolValue (decide (evalExpr vs a < evalExpr vs b))
  | .ge a b => boolValue (decide (evalExpr vs b ≤ evalExpr vs a))

/-- Whether the condition of `IF` holds: a comparison that holds, or any other value but 0 (DESIGN CHOICE, log 16). -/
def evalCond (vs : List (Nat × Int)) (c : HostExpr) : Bool := decide (evalExpr vs c ≠ 0)

/-! ### One line of a host program -/

/-- Go to program line `n`. -/
def State.hostGoto (s : State) (n : Nat) : State := { s with host := { s.host with pc := n } }

/-- Go to the next line. -/
def State.hostNext (s : State) : State := s.hostGoto (s.host.pc + 1)

/-- Go to a label's line. An unknown label ends the program, and of a label that stands twice the first line is taken
(DESIGN CHOICE, log 16). -/
def State.hostLabel (s : State) (l : Nat) : State :=
  s.hostGoto (s.host.program.findIdx (fun line => line == .label l))

/-- Set a host variable. -/
def State.hostSet (s : State) (x : Nat) (v : Int) : State :=
  { s with host := { s.host with vars := setVar s.host.vars x v } }

/-- A bus read of `n` bytes at an offset into a host variable; an ERROR response sets none (DESIGN CHOICE, log 16). -/
def State.hostRead (s : State) (off n x : Nat) : State :=
  match s.memRead off n with
  | .data v => (s.answer (.data v)).hostSet x v.toNat
  | .nothing => s.answer .nothing
  | .notSelected => s.answer .notSelected
  | .okay => s.answer .okay
  | .error => s.answer .error

/-- A 32-bit read of a register: `RD REG`. -/
def State.rd (s : State) (r : Reg) : State := s.answer (s.memRead (regOffset r) 4)

/-- One line (30_encoding.md R89). -/
def State.hostLine (s : State) : HostLine → State
  | .wr r imm => (s.wr r imm).hostNext
  | .rd r x => (s.hostRead (regOffset r) 4 x).hostNext
  | .rdb i x => (s.hostRead (Config.rxBase + i) 1 x).hostNext
  | .rdw i x => (s.hostRead (Config.rxBase + i) 4 x).hostNext
  | .waitIdle => if s.busy then s.rd .status else (s.rd .status).hostNext
  | .w1c mask => (s.wr .status mask).hostNext
  | .label _ => s.hostNext
  | .ifGoto c l => if evalCond s.host.vars c then s.hostLabel l else s.hostNext
  | .goto l => s.hostLabel l
  | .letVar x e => (s.hostSet x (evalExpr s.host.vars e)).hostNext
  | .delay _ => s.hostNext

/-- The host program takes its next line; past its end it does nothing. -/
def State.hostTurn (s : State) : State :=
  match s.host.program[s.host.pc]? with
  | some line => s.hostLine line
  | none => s

/-- The position is past the last line of the host program. -/
def State.pastProgram (s : State) : Bool := decide (s.host.program.length ≤ s.host.pc)

/-! ### Pseudo-instructions (30_encoding.md R90) -/

/-- `CALL opcode, param`, its results in the variables `st`, `ack` and `prm`. -/
def callLines (opcode : Word16) (param : Word32) (pol : Policy) (st ack prm : Nat) : List HostLine :=
  [.wr .cmd (opcode.setWidth 32), .wr .param param, .wr .ctrl (ctrlWord true .exchange pol), .waitIdle,
    .rd .status st, .rd .lastAck ack, .rd .lastParam prm]

/-- `RECVDATA`, its results in the variables `st` and `n`. -/
def recvDataLines (pol : Policy) (st n : Nat) : List HostLine :=
  [.wr .ctrl (ctrlWord true .recvData pol), .waitIdle, .rd .status st, .rd .rxCount n]

/-- `SETPOLL interval, ceiling`. -/
def setPollLines (interval ceiling : Word16) : List HostLine :=
  [.wr .pollInterval (interval.setWidth 32), .wr .maxPolls (ceiling.setWidth 32)]

end Sys2Proof.Machine
end

