-- ==== Sys2Proof/Machine/HostSequence.lean ====
section
/-!
DEFINITION. The host reference sequences (43_host_sequences.md R139 to R151): host software over the block's registers,
as a driver that makes one bus access a step. What the driver does with a call's result is the pure function
`afterCall`; the only automatic retry is the capture loop (R151).
-/
namespace Sys2Proof.Machine

/-! ### The sequences' decisions -/

/-- The result of a call from the STATUS word and the two reply registers (R140); none where the rule gives none. -/
def callResult (st : Word32) (ack : Word16) (parameter : Word32) : Option CallResult :=
  if st.getLsbD 1 then some (.reply ack parameter)
  else if st.getLsbD 2 then some .timeout
  else if st.getLsbD 3 then some .checksumMismatch
  else if st.getLsbD 4 then some .rejected
  else none

/-- The classification of an enroll step's NACK (R146). -/
def classify (code : Word32) : SeqResult :=
  if code.toNat ≤ Config.slotMax then .duplicateFinger else .enrollRetryable

/-- What the driver does after a call: another call, the template's retrieval, or a result. -/
inductive DriverNext where
  | call (op : Word16) (p : Word32) (why : Purpose)
  | retrieve
  | finish (r : SeqResult)
deriving DecidableEq, Repr

/-- Capture attempt `n` (R143). -/
def captureCall (quality : Word32) (n : Nat) (after : AfterCapture) : DriverNext :=
  .call 0x0060#16 quality (.capture n after)

/-- What follows a capture that was acknowledged (R142, R143, R148). -/
def afterCaptured : AfterCapture → DriverNext
  | .stop => .finish .captured
  | .enrollStep k => .call (BitVec.ofNat 16 (0x22 + k)) 0#32 (.enrollStep k)
  | .identify => .call 0x0051#16 0#32 .identify

/-- What follows a reply (R142 to R149). -/
def afterReply (quality : Word32) (why : Purpose) (ack : Word16) (parameter : Word32) : DriverNext :=
  match why with
  | .plain => .finish (.reply ack parameter)
  | .enrollStart =>
    if ack = Config.ackCode then captureCall quality 1 (.enrollStep 1) else .finish (.nack parameter)
  | .capture n after =>
    if ack = Config.ackCode then afterCaptured after
    else if n < Config.captureCeiling then captureCall quality (n + 1) after
    else .finish .captureTimeout
  | .enrollStep k =>
    if ack = Config.ackCode then (if k < 3 then captureCall quality 1 (.enrollStep (k + 1)) else .retrieve)
    else .finish (classify parameter)
  | .identify => if ack = Config.ackCode then .finish (.matched parameter) else .finish .noMatch
  | .presence => .finish (.pressed (parameter != Config.noFingerCode))

/-- What follows a call: a block error ends the sequence with that result (R141, R142, R143, R148, R149). -/
def afterCall (quality : Word32) (why : Purpose) : CallResult → DriverNext
  | .reply ack parameter => afterReply quality why ack parameter
  | .timeout => .finish .timeout
  | .checksumMismatch => .finish .checksumMismatch
  | .rejected => .finish .rejected

/-- The first call of a task (R140, R142, R143, R148, R149). -/
def taskStart (quality : Word32) : Task → DriverNext
  | .call op p => .call op p .plain
  | .enroll slot => .call 0x0022#16 slot .enrollStart
  | .capture => captureCall quality 1 .stop
  | .identify => captureCall quality 1 .identify
  | .isPressed => .call 0x0026#16 0#32 .presence

/-! ### The driver's bus accesses -/

/-- The phase that starts what comes next. -/
def phaseOf : DriverNext → DriverPhase
  | .call op p why => .writeCmd op p why
  | .retrieve => .dataCtrl
  | .finish r => .finished r

/-- The driver's next phase. -/
def State.toPhase (s : State) (p : DriverPhase) : State := { s with driver := { s.driver with phase := p } }

/-- The driver is free to take a task. -/
def driverFree : DriverPhase → Bool
  | .off => true
  | .finished _ => true
  | .writeCmd _ _ _ => false
  | .writeParam _ _ => false
  | .writeCtrl _ => false
  | .wait _ => false
  | .readStatus _ => false
  | .readAck _ _ => false
  | .readParam _ _ _ => false
  | .dataCtrl => false
  | .dataWait => false
  | .dataStatus => false
  | .dataCount _ => false
  | .readTemplate _ => false
  | .sink _ => false

/-- A caller gives the driver a task; a driver that is in a sequence ignores it (DESIGN CHOICE, log 17). -/
def State.driverStart (s : State) (t : Task) (quality : Word32) (pol : Policy) : State :=
  if driverFree s.driver.phase then
    { s with driver := { phase := phaseOf (taskStart quality t), quality := quality, policy := pol } }
  else s

/-- The end of `call`: its result and what follows; without a result the driver reads STATUS again
(DESIGN CHOICE, log 17). -/
def callPhase (quality : Word32) (why : Purpose) (st : Word32) (ack : Word16) (parameter : Word32) : DriverPhase :=
  match callResult st ack parameter with
  | some r => phaseOf (afterCall quality why r)
  | none => .wait why

/-- The end of `retrieve_template`'s receive (R144): a block error, or the template is read. -/
def dataPhase (st : Word32) : DriverPhase :=
  if st.getLsbD 2 then .finished .timeout
  else if st.getLsbD 3 then .finished .checksumMismatch
  else .readTemplate []

/-- After one more byte of the template (R144): the next byte, or, with all 498 read, the sink. -/
def templatePhase (got : List Byte) : DriverPhase :=
  if got.length < Config.dataPayloadLen then .readTemplate got else .sink got

/-- The byte of an 8-bit read's response. -/
def responseByte : BusResponse → List Byte
  | .data v => [v.setWidth 8]
  | .nothing => []
  | .notSelected => []
  | .okay => []
  | .error => []

/-- The driver reads byte `got.length` of the template, RX[4 + got.length], by one 8-bit bus read (R144, 20_memory.md R59;
the width and the rising order: DESIGN CHOICE, log 17). -/
def State.readTemplateByte (s : State) (got : List Byte) : State :=
  (s.answer (s.memRead (Config.rxBase + 4 + got.length) 1)).toPhase
    (templatePhase (got ++ responseByte (s.memRead (Config.rxBase + 4 + got.length) 1)))

/-- The driver's next bus access: `call` (R140, R90 CALL) or `retrieve_template` (R144, R90 RECVDATA). -/
def State.driverTurn (s : State) : State :=
  match s.driver.phase with
  | .off => s
  | .finished _ => s
  | .sink _ => s
  | .writeCmd op p why => (s.wr .cmd (op.setWidth 32)).toPhase (.writeParam p why)
  | .writeParam p why => (s.wr .param p).toPhase (.writeCtrl why)
  | .writeCtrl why => (s.wr .ctrl (ctrlWord true .exchange s.driver.policy)).toPhase (.wait why)
  | .wait why => if s.busy then s.rd .status else (s.rd .status).toPhase (.readStatus why)
  | .readStatus why => (s.rd .status).toPhase (.readAck s.statusWord why)
  | .readAck st why => (s.rd .lastAck).toPhase (.readParam st s.lastAck why)
  | .readParam st ack why => (s.rd .lastParam).toPhase (callPhase s.driver.quality why st ack s.lastParam)
  | .dataCtrl => (s.wr .ctrl (ctrlWord true .recvData s.driver.policy)).toPhase .dataWait
  | .dataWait => if s.busy then s.rd .status else (s.rd .status).toPhase .dataStatus
  | .dataStatus => (s.rd .status).toPhase (.dataCount s.statusWord)
  | .dataCount st => (s.rd .rxCount).toPhase (dataPhase st)
  | .readTemplate got => s.readTemplateByte got

/-! ### The end of a run (70_reset_and_hazards.md R175) -/

/-- The host program has ended: its position is past the last line, and neither a begun host action nor the reference
driver has an access left to make (the last two: DESIGN CHOICE, log 22). -/
def State.hostEnded (s : State) : Bool := s.pastProgram && s.host.pending.isEmpty && driverFree s.driver.phase

/-- The run is finished: the host program has ended and no operation is in flight, that is the Engine is not in SEND, RECV
or SLEEP. -/
def State.runFinished (s : State) : Bool := s.hostEnded && !s.busy

/-! ### The sink -/

/-- The sink's answer ends the enrollment; a failure repeats no exchange (R144, R150). -/
def State.sinkAnswer (s : State) (ok : Bool) : State :=
  match s.driver.phase with
  | .sink _ => s.toPhase (.finished (if ok then .enrolled else .sinkFailure))
  | .off => s
  | .finished _ => s
  | .writeCmd _ _ _ => s
  | .writeParam _ _ => s
  | .writeCtrl _ => s
  | .wait _ => s
  | .readStatus _ => s
  | .readAck _ _ => s
  | .readParam _ _ _ => s
  | .dataCtrl => s
  | .dataWait => s
  | .dataStatus => s
  | .dataCount _ => s
  | .readTemplate _ => s

end Sys2Proof.Machine
end

