-- ==== Sys2Proof/Machine/Link.lean ====
section
/-!
DEFINITION. The Engine's and the Timer's steps: the SEND phase, the RECV phase with the receive-timeout synchronizer,
and completion (41_link_operations.md R104, R110 to R117; 40_codec.md R98 to R100).
-/
namespace Sys2Proof.Machine

/-- `rx_len` of a block operation (10_state.md R20); undefined and unused for SEND_CMD. -/
def rxLen : BlockOp → Option Nat
  | .exchange => some Config.cmdPktLen
  | .recvData => some Config.dataPktLen
  | .sendCmd => none
  | .recvCmd => some Config.cmdPktLen

/-- End of send (41_link_operations.md R111). The receive operations have no SEND phase (DESIGN CHOICE, log 11). -/
def State.endOfSend (s : State) : State :=
  match s.ctrl.op with
  | .exchange => { s with eng := .recv }
  | .sendCmd => s.finish
  | .recvData => s
  | .recvCmd => s

/-- `TxPush(TX_BUF[tx_idx])`, and `tx_idx` advances (41_link_operations.md R110). -/
def State.pushNext (s : State) : State := { s.txPush (s.txBuf s.txIdx) with txIdx := s.txIdx + 1 }

/-- Send byte, the Transport accepting (41_link_operations.md R110, R111). -/
def State.sendByte (s : State) : State :=
  if s.txIdx < Config.cmdPktLen then
    (if s.txIdx + 1 = Config.cmdPktLen then s.pushNext.endOfSend else s.pushNext).nextDraw
  else s

/-- Decode an accepted 12-byte reply (40_codec.md R98). -/
def State.decodeReply (s : State) (p : List Byte) : State :=
  { s with lastParam := (decodeCommand p).1, lastAck := (decodeCommand p).2 }

/-- RX_CSUM at the completion of every receive (40_codec.md R99): the received checksum in 31:16, the computed one in
15:0. -/
def State.recordCsum (s : State) (p : List Byte) : State := { s with rxCsum := packetChecksum p ++ packetSum p }

/-- The validator rejects packet `p` (40_codec.md R99). -/
def State.rejects (s : State) (p : List Byte) : Bool := s.ctrl.verify && packetSum p != packetChecksum p

/-- An accepted packet (40_codec.md R98, R100): a 12-byte one is decoded, and the operation is done. -/
def State.accept (s : State) (p : List Byte) : State :=
  if p.length = Config.cmdPktLen then (s.decodeReply p).finish else s.finish

/-- Completion of a receive whose packet is `p` (41_link_operations.md R117, 40_codec.md R99). -/
def State.complete (s : State) (p : List Byte) : State :=
  if s.rejects p then (s.recordCsum p).raise .checksumMismatch else (s.recordCsum p).accept p

/-- `RX_BUF[RX_COUNT] <- RxPop()`, and RX_COUNT advances (41_link_operations.md R113). -/
def State.takeByte (s : State) (b : Byte) (rest : List Byte) : State :=
  { s.storeRx s.rxCount.toNat b with rxFifo := rest, rxCount := s.rxCount + 1#10 }

/-- The packet is complete: `rx_len` bytes are collected (41_link_operations.md R113). -/
def State.packetComplete (s : State) : Bool := decide (rxLen s.ctrl.op = some s.rxCount.toNat)

/-- The bytes collected so far, `RX_BUF[0..RX_COUNT)`. -/
def State.collected (s : State) : List Byte := s.rxBytes 0 s.rxCount.toNat

/-- Poll, byte ready (41_link_operations.md R113). -/
def State.receiveByte (s : State) (b : Byte) (rest : List Byte) : State :=
  (if (s.takeByte b rest).packetComplete then (s.takeByte b rest).complete (s.takeByte b rest).collected
    else s.takeByte b rest).nextDraw

/-- STALL_COUNT advances (41_link_operations.md R115). -/
def State.countStall (s : State) : State := { s with stallCount := s.stallCount + 1#16 }

/-- The stall counter has reached the ceiling (41_link_operations.md R115). -/
def State.stalledOut (s : State) : Bool := decide (s.maxPolls.toNat ≤ s.stallCount.toNat)

/-- The Engine polls again. -/
def State.pollAgain (s : State) : State := { s with eng := .recv }

/-- `stall` (41_link_operations.md R115): count the empty poll, then time out or poll again. -/
def State.stall (s : State) : State :=
  if s.countStall.stalledOut then s.countStall.raise .timeout else s.countStall.pollAgain

/-- SLEEP is entered with POLL_INTERVAL ticks left (41_link_operations.md R114). -/
def State.startSleep (s : State) : State := { s with sleepLeft := s.pollInterval, eng := .sleep }

/-- Poll, empty (41_link_operations.md R114). -/
def State.emptyPoll (s : State) : State :=
  (if s.pollInterval = 0#16 then s.stall else s.startSleep).nextDraw

/-- Poll (41_link_operations.md R112). -/
def State.poll (s : State) : State :=
  match s.rxFifo with
  | b :: rest => s.receiveByte b rest
  | [] => s.emptyPoll

/-- The Engine's step (41_link_operations.md R104); in SEND it waits until the Transport accepts the byte. -/
def State.engineStep (s : State) (accept : Bool) : State :=
  match s.eng with
  | .send => if accept then s.sendByte else s
  | .recv => s.poll
  | .idle => s
  | .sleep => s
  | .halted => s

/-- One tick of the sleep has passed. -/
def State.countTick (s : State) : State := { s with sleepLeft := s.sleepLeft - 1#16 }

/-- A Timer tick (41_link_operations.md R115). -/
def State.tick (s : State) : State :=
  if s.eng = .sleep then (if s.countTick.sleepLeft = 0#16 then s.countTick.stall else s.countTick) else s

end Sys2Proof.Machine
end

