-- ==== Sys2Proof/Machine/Agents.lean ====
section
/-!
DEFINITION. Which event happens next, and what each agent's event does (20_memory.md R59, 41_link_operations.md R104).
-/
namespace Sys2Proof.Machine

/-- The event makes the Host's next bus access. -/
def hostAccess : Event → Bool
  | .issue _ => true
  | .busRead _ _ => true
  | .busWrite _ _ _ => true
  | .hostTurn => true
  | .driverTurn => true
  | .hostWrite => false
  | .driverStart _ _ _ => false
  | .sinkAnswer _ => false
  | .engine _ => false
  | .moduleByte _ => false
  | .moduleResume => false
  | .tick => false
  | .reset => false
  | .transportReset => false

/-- The event offered next: the first of `inputs`, or a free one where `inputs` lists none (DESIGN CHOICE, log 1). -/
def State.offered (s : State) : Event :=
  match s.inputs with
  | e :: _ => e
  | [] => Config.freeEvent s.sched

/-- The offered event must wait: host transactions are made in the host's program order (20_memory.md R59), so a further
access of the Host comes after the writes of the action it has begun. -/
def State.deferred (s : State) : Bool := hostAccess s.offered && !s.host.pending.isEmpty

/-- The event that happens next: the offered one, or the oldest pending write where that one must wait. -/
def State.nextEvent (s : State) : Event := if s.deferred then .hostWrite else s.offered

/-- The state once that event has been taken; a listed event that must wait stays listed. -/
def State.popEvent (s : State) : State :=
  match s.inputs with
  | _ :: rest => if s.deferred then s else { s with inputs := rest }
  | [] => { s with sched := s.sched + 1 }

/-- The state in which the environment offers the event `e`, and nothing else is listed. -/
def State.offer (s : State) (e : Event) : State := { s with inputs := [e] }

/-- The instruction an event issues, if it issues one. -/
def eventInstr : Event → Option Instr
  | .issue a =>
    match decodeAction a with
    | .ok i => some i
    | .error _ => none
  | .hostWrite => none
  | .busRead _ _ => none
  | .busWrite _ _ _ => none
  | .hostTurn => none
  | .driverStart _ _ _ => none
  | .driverTurn => none
  | .sinkAnswer _ => none
  | .engine _ => none
  | .moduleByte _ => none
  | .moduleResume => none
  | .tick => none
  | .reset => none
  | .transportReset => none

/-- What an event does that issues no instruction of the table. A host action that is no instruction still makes its
bus writes: a CTRL write with START = 0 sets the fields (30_encoding.md R81), and an opcode or parameter the table does
not list is carried unchanged (R86). -/
def State.agentStep (s : State) : Event → State
  | .issue a => s.perform a
  | .hostWrite => s.hostWrite
  | .busRead addr n => s.busRead addr n
  | .busWrite addr n v => s.busWrite addr n v
  | .hostTurn => s.hostTurn
  | .driverStart t quality pol => s.driverStart t quality pol
  | .driverTurn => s.driverTurn
  | .sinkAnswer ok => s.sinkAnswer ok
  | .engine accept => s.engineStep accept
  | .moduleByte b => s.moduleByte b
  | .moduleResume => s.moduleResume
  | .tick => s.tick
  | .reset => s.assertReset
  | .transportReset => s.transportReset

/-- The host action whose bytes a table word is (DESIGN CHOICE, log 18), if the width is one of the table's. -/
def tableAction (nbits w : Nat) : Option HostAction :=
  match tableFormat nbits with
  | some f =>
    match actionOfBytes f (tableBytes f nbits w) with
    | .ok a => some a
    | .error _ => none
  | none => none

end Sys2Proof.Machine
end

