-- ==== Sys2Proof/Machine/BlockOps.lean ====
section
/-!
DEFINITION. The meanings of the four block operations (41_link_operations.md R105 to R109): the host's CTRL write that
launches them. The rest of each operation is the Engine's own steps (Machine/Link.lean), one a step of the machine
(20_memory.md R59).
-/
namespace Sys2Proof.Machine

/-- EXCHANGE (R106): encode CMD and PARAM, then SEND; the reply is received, validated and decoded by the Engine. -/
def execExchange (pol : Policy) (s : State) : Host.Outcome State Fault Refusal :=
  .next (s.wr .ctrl (ctrlWord true .exchange pol))

/-- RECV_DATA (R107): receive and validate a 504-byte Data packet. -/
def execRecvData (pol : Policy) (s : State) : Host.Outcome State Fault Refusal :=
  .next (s.wr .ctrl (ctrlWord true .recvData pol))

/-- SEND_CMD (R108): encode CMD and PARAM, then SEND; nothing is received. -/
def execSendCmd (pol : Policy) (s : State) : Host.Outcome State Fault Refusal :=
  .next (s.wr .ctrl (ctrlWord true .sendCmd pol))

/-- RECV_CMD (R109): receive, validate and decode a 12-byte reply. -/
def execRecvCmd (pol : Policy) (s : State) : Host.Outcome State Fault Refusal :=
  .next (s.wr .ctrl (ctrlWord true .recvCmd pol))

end Sys2Proof.Machine
end

