-- ==== Sys2Proof/Machine/Commands.lean ====
section
/-!
DEFINITION. The meanings of the thirteen protocol commands (42_protocol_commands.md R124 to R137): the host places the
opcode and the parameter in CMD and PARAM and launches EXCHANGE, or SEND_CMD (the opcode table's "launch" field).
Each write is one atomic step (20_memory.md R59): the instruction's own step writes CMD, and PARAM and CTRL follow as the
host's pending writes (log 4). The reply is the Engine's work, and how the host reads it is `callResult`.
-/
namespace Sys2Proof.Machine

/-- OPEN (R125): opcode 0x0001. -/
def execOpen (parameter : Word32) (launch : Launch) (s : State) : Host.Outcome State Fault Refusal :=
  .next (s.command 0x0001#16 parameter (launchWord launch))

/-- CLOSE (R126): opcode 0x0002. -/
def execClose (parameter : Word32) (launch : Launch) (s : State) : Host.Outcome State Fault Refusal :=
  .next (s.command 0x0002#16 parameter (launchWord launch))

/-- LED_ON (R127): opcode 0x0012, parameter 1. -/
def execLedOn (launch : Launch) (s : State) : Host.Outcome State Fault Refusal :=
  .next (s.command 0x0012#16 1#32 (launchWord launch))

/-- LED_OFF (R128): opcode 0x0012, parameter 0. -/
def execLedOff (launch : Launch) (s : State) : Host.Outcome State Fault Refusal :=
  .next (s.command 0x0012#16 0#32 (launchWord launch))

/-- ENROLL_START (R129): opcode 0x0022. -/
def execEnrollStart (slot : Word32) (launch : Launch) (s : State) : Host.Outcome State Fault Refusal :=
  .next (s.command 0x0022#16 slot (launchWord launch))

/-- ENROLL1 (R130): opcode 0x0023. -/
def execEnroll1 (parameter : Word32) (launch : Launch) (s : State) : Host.Outcome State Fault Refusal :=
  .next (s.command 0x0023#16 parameter (launchWord launch))

/-- ENROLL2 (R131): opcode 0x0024. -/
def execEnroll2 (parameter : Word32) (launch : Launch) (s : State) : Host.Outcome State Fault Refusal :=
  .next (s.command 0x0024#16 parameter (launchWord launch))

/-- ENROLL3 (R132): opcode 0x0025. -/
def execEnroll3 (parameter : Word32) (launch : Launch) (s : State) : Host.Outcome State Fault Refusal :=
  .next (s.command 0x0025#16 parameter (launchWord launch))

/-- IS_PRESS_FINGER (R133): opcode 0x0026. -/
def execIsPressFinger (parameter : Word32) (launch : Launch) (s : State) : Host.Outcome State Fault Refusal :=
  .next (s.command 0x0026#16 parameter (launchWord launch))

/-- DELETE_ID (R134): opcode 0x0040. -/
def execDeleteId (slot : Word32) (launch : Launch) (s : State) : Host.Outcome State Fault Refusal :=
  .next (s.command 0x0040#16 slot (launchWord launch))

/-- DELETE_ALL (R135): opcode 0x0041. -/
def execDeleteAll (parameter : Word32) (launch : Launch) (s : State) : Host.Outcome State Fault Refusal :=
  .next (s.command 0x0041#16 parameter (launchWord launch))

/-- IDENTIFY (R136): opcode 0x0051. -/
def execIdentify (parameter : Word32) (launch : Launch) (s : State) : Host.Outcome State Fault Refusal :=
  .next (s.command 0x0051#16 parameter (launchWord launch))

/-- CAPTURE_FINGER (R137): opcode 0x0060. -/
def execCaptureFinger (quality : Word32) (launch : Launch) (s : State) : Host.Outcome State Fault Refusal :=
  .next (s.command 0x0060#16 quality (launchWord launch))

end Sys2Proof.Machine
end

