-- ==== Sys2Proof/Machine/Dispatch.lean ====
section
/-!
DEFINITION. The dispatch: one arm per instruction, each one call of its meaning.
-/
namespace Sys2Proof.Machine

def exec (i : Instr) (s : State) : Host.Outcome State Fault Refusal :=
  match i with
  | .exchange pol => Sys2Proof.Machine.execExchange pol s
  | .recvData pol => Sys2Proof.Machine.execRecvData pol s
  | .sendCmd pol => Sys2Proof.Machine.execSendCmd pol s
  | .recvCmd pol => Sys2Proof.Machine.execRecvCmd pol s
  | .openCmd p launch => Sys2Proof.Machine.execOpen p launch s
  | .closeCmd p launch => Sys2Proof.Machine.execClose p launch s
  | .ledOn launch => Sys2Proof.Machine.execLedOn launch s
  | .ledOff launch => Sys2Proof.Machine.execLedOff launch s
  | .enrollStart p launch => Sys2Proof.Machine.execEnrollStart p launch s
  | .enroll1 p launch => Sys2Proof.Machine.execEnroll1 p launch s
  | .enroll2 p launch => Sys2Proof.Machine.execEnroll2 p launch s
  | .enroll3 p launch => Sys2Proof.Machine.execEnroll3 p launch s
  | .isPressFinger p launch => Sys2Proof.Machine.execIsPressFinger p launch s
  | .deleteId p launch => Sys2Proof.Machine.execDeleteId p launch s
  | .deleteAll p launch => Sys2Proof.Machine.execDeleteAll p launch s
  | .identify p launch => Sys2Proof.Machine.execIdentify p launch s
  | .captureFinger p launch => Sys2Proof.Machine.execCaptureFinger p launch s

end Sys2Proof.Machine
end

