-- ==== Sys2Proof/Machine/Step.lean ====
section
/-!
DEFINITION. One step of the machine: one atomic event of one agent (20_memory.md R59), and where an instruction is
placed so that the next step runs it.
-/
namespace Sys2Proof.Machine

/-- One event: the instruction it issues, or what its agent does. -/
def stepEvent (e : Event) (s : State) : Host.Outcome State Fault Refusal :=
  match eventInstr e with
  | some i => exec i s
  | none => .next (s.agentStep e)

/-- One step: take the next event. -/
def step (s : State) : Host.Outcome State Fault Refusal := stepEvent s.nextEvent s.popEvent

/-- The instruction placed as the very next event, with no write of an earlier action pending (DESIGN CHOICE, log 2); a
width the table has not changes nothing. -/
def State.withFetchWord (s : State) (nbits w : Nat) : State :=
  match tableAction nbits w with
  | some a => { s with inputs := .issue a :: s.inputs, host := { s.host with pending := [] } }
  | none => s

end Sys2Proof.Machine
end

