-- ==== Sys2Proof/Safety.lean ====
section
/-!
DEFINITION. What holds of every state a run can reach, in the terms the claims use. A step of this machine never stops
(60_exceptions.md R169), so a safe run is one whose states keep the invariant.
-/
namespace Sys2Proof
open Machine

/-- At most one of DONE, TIMEOUT and CSUMERR is set (60_exceptions.md R159, R160). -/
def atMostOneOutcome (f : Flags) : Bool :=
  !(f.done && f.timeout) && !(f.done && f.csumErr) && !(f.timeout && f.csumErr)

/-- None of DONE, TIMEOUT and CSUMERR is set. -/
def noOutcome (f : Flags) : Bool := !f.done && !f.timeout && !f.csumErr

/-- TX_BUF holds the packet `p`, every byte written. -/
def txHolds (m : Memory) (p : List Byte) : Prop :=
  ∀ i, i < p.length → Memory.read m (Config.txBase + i) = some (packetByte p i)

/-- The invariant of the block and its Transport. -/
structure Inv (s : State) : Prop where
  /-- The buffers are in canonical form. -/
  memCanonical : Memory.wf s.mem
  /-- `tx_idx` is 0 to 12 (10_state.md R18). -/
  txIdxBound : s.txIdx ≤ 12
  /-- In SEND: the operation encodes, a byte is left to send, TX_BUF holds the packet of CMD and PARAM
  (30_encoding.md R77), and nothing is received or stalled yet (41_link_operations.md R111). -/
  sending : s.eng = .send → (s.ctrl.op = .exchange ∨ s.ctrl.op = .sendCmd) ∧ s.txIdx < 12 ∧
    txHolds s.mem (encodeCommand s.cmd s.param) ∧ s.rxCount = 0#10 ∧ s.stallCount = 0#16
  /-- In RECV and SLEEP: fewer than `rx_len` bytes are collected, and the stall counter is below the ceiling
  (10_state.md R31, R32). -/
  receiving : s.eng = .recv ∨ s.eng = .sleep → ∃ len, rxLen s.ctrl.op = some len ∧ s.rxCount.toNat < len ∧
    s.stallCount.toNat < max s.maxPolls.toNat 1
  /-- In SLEEP: 1 to POLL_INTERVAL ticks remain (10_state.md R19). -/
  sleeping : s.eng = .sleep → 0 < s.sleepLeft.toNat ∧ s.sleepLeft.toNat ≤ s.pollInterval.toNat
  /-- In the RECV and SLEEP of EXCHANGE all twelve bytes of the Command packet have been pushed
  (41_link_operations.md R120). -/
  exchangeSent : s.eng = .recv ∨ s.eng = .sleep → s.ctrl.op = .exchange → s.txIdx = 12
  /-- HALTED follows only a fatal timeout (60_exceptions.md R158). -/
  halting : s.eng = .halted → s.ctrl.toFatal = true ∧ s.flags.done = false ∧ s.flags.csumErr = false
  /-- An operation ends with at most one of DONE, TIMEOUT, CSUMERR (60_exceptions.md R159). -/
  oneOutcome : atMostOneOutcome s.flags = true
  /-- While an operation is in progress none of them is set (41_link_operations.md R105). -/
  busyNoOutcome : s.busy = true → noOutcome s.flags = true
  /-- RX_COUNT is 0 to 504 (10_state.md R32). -/
  rxCountBound : s.rxCount.toNat ≤ 504
  /-- The RX_BUF bytes below RX_COUNT are written (10_state.md R38). -/
  rxWritten : ∀ i, i < s.rxCount.toNat → (Memory.read s.mem (Config.rxBase + i)).isSome = true
  /-- TX_CSUM is the checksum field of TX_BUF (10_state.md R34). -/
  txCsumMatches : ∀ b c, Memory.read s.mem (Config.txBase + 10) = some b →
    Memory.read s.mem (Config.txBase + 11) = some c → s.txCsum = le16 b c
  /-- The RX FIFO holds no more than its depth (92_eei_decisions.md D28). -/
  fifoBound : ∀ d, s.platform.rxFifoDepth = some d → s.rxFifo.length ≤ d
  /-- A Module that does not wait holds no byte back. -/
  noWaiting : s.platform.moduleWaits = false → s.moduleWaiting = []

/-- What the host cannot change while the block is locked (20_memory.md R56). -/
def sameInputs (s t : State) : Prop :=
  t.ctrl = s.ctrl ∧ t.cmd = s.cmd ∧ t.param = s.param ∧ t.pollInterval = s.pollInterval ∧ t.maxPolls = s.maxPolls

/-- The Transport, the Module and the platform are the same. -/
def sameTransport (s t : State) : Prop :=
  t.rxFifo = s.rxFifo ∧ t.txStream = s.txStream ∧ t.moduleWaiting = s.moduleWaiting ∧ t.platform = s.platform

/-- The last reply is the same: LAST_PARAM and LAST_ACK (40_codec.md R98). -/
def sameReply (s t : State) : Prop := t.lastParam = s.lastParam ∧ t.lastAck = s.lastAck

/-- The host's software and the model's own fields are the same, but for the host's last bus response and the writes it
has pending. -/
def sameHost (s t : State) : Prop :=
  t.host.program = s.host.program ∧ t.host.pc = s.host.pc ∧ t.host.vars = s.host.vars ∧ t.driver = s.driver ∧
    t.inputs = s.inputs ∧ t.sched = s.sched ∧ t.draws = s.draws

/-- Every byte of TX_BUF and RX_BUF reads as before, but for those at the offsets in `stored`. -/
def sameBytesBut (stored : Nat → Prop) (s t : State) : Prop :=
  ∀ a, ¬ stored a → Memory.read t.mem a = Memory.read s.mem a

/-- The offsets of TX_BUF. -/
def inTxBuf (a : Nat) : Prop := 0x100 ≤ a ∧ a < 0x10C

/-- The state after a launch of EXCHANGE or SEND_CMD with CMD = `c` and PARAM = `p` in an idle block
(41_link_operations.md R105, 40_codec.md R96). -/
def launchedSend (op : BlockOp) (pol : Policy) (c : Word16) (p : Word32) (s : State) : State :=
  { s with
    cmd := c
    param := p
    ctrl := { op := op, verify := pol.verify, toFatal := pol.toFatal }
    flags := { s.flags with done := false, timeout := false, csumErr := false }
    stallCount := 0#16
    rxCount := 0#10
    mem := Memory.writeAll s.mem 0x100 (encodeCommand c p)
    txCsum := le16 (packetByte (encodeCommand c p) 10) (packetByte (encodeCommand c p) 11)
    txIdx := 0
    eng := .send
    host := { s.host with bus := .okay } }

/-- The state of an idle block after the first write of the command with opcode `c`, parameter `p` and launch `l`: CMD is
written, and the writes of PARAM and CTRL are pending (42_protocol_commands.md R124, 20_memory.md R59). -/
def commandStarted (c : Word16) (p : Word32) (l : Launch) (s : State) : State :=
  { s with
    cmd := c
    host := { s.host with
      bus := .okay
      pending := s.host.pending ++
        [(.param, p), (.ctrl, ctrlWord true (if l.sendOnly then .sendCmd else .exchange) l.policy)] } }

/-- The state after a launch of RECV_DATA or RECV_CMD in an idle block (41_link_operations.md R105). -/
def launchedRecv (op : BlockOp) (pol : Policy) (s : State) : State :=
  { s with
    ctrl := { op := op, verify := pol.verify, toFatal := pol.toFatal }
    flags := { s.flags with done := false, timeout := false, csumErr := false }
    stallCount := 0#16
    rxCount := 0#10
    eng := .recv
    host := { s.host with bus := .okay } }

/-- The state after a write that a locked block refuses (20_memory.md R56). -/
def refusedWrite (s : State) : State :=
  { s with flags := { s.flags with busyErr := true }, host := { s.host with bus := .okay } }

/-- The operation sends a Command packet (40_codec.md R96). -/
def Instr.sends : Instr → Bool
  | .exchange _ => true
  | .recvData _ => false
  | .sendCmd _ => true
  | .recvCmd _ => false
  | .openCmd _ _ => true
  | .closeCmd _ _ => true
  | .ledOn _ => true
  | .ledOff _ => true
  | .enrollStart _ _ => true
  | .enroll1 _ _ => true
  | .enroll2 _ _ => true
  | .enroll3 _ _ => true
  | .isPressFinger _ _ => true
  | .deleteId _ _ => true
  | .deleteAll _ _ => true
  | .identify _ _ => true
  | .captureFinger _ _ => true

/-- What an instruction leaves as it was, from `s` to `t` (41_link_operations.md R105, R107, R109; 20_memory.md R56). -/
structure InstrFrame (i : Instr) (s t : State) : Prop where
  reply : sameReply s t
  rxCsum : t.rxCsum = s.rxCsum
  pollInterval : t.pollInterval = s.pollInterval
  maxPolls : t.maxPolls = s.maxPolls
  intEn : t.intEn = s.intEn
  sleepLeft : t.sleepLeft = s.sleepLeft
  transport : sameTransport s t
  host : sameHost s t
  /-- BUSYERR stays, unless the block was locked, when it is set. -/
  busyErr : t.flags.busyErr = (if s.eng = .idle then s.flags.busyErr else true)
  /-- Only bytes of TX_BUF are stored. -/
  bytes : sameBytesBut inTxBuf s t
  /-- A block operation writes neither CMD nor PARAM, and leaves no further write. -/
  blockOperation : i.opcode = none → t.cmd = s.cmd ∧ t.param = s.param ∧ t.host.pending = s.host.pending
  /-- RECV_DATA and RECV_CMD store nothing and send nothing. -/
  receive : i.sends = false → t.mem = s.mem ∧ t.txCsum = s.txCsum ∧ t.txIdx = s.txIdx
  /-- A locked block keeps its Engine state and everything an operation in flight reads. -/
  lockedBlock : s.eng ≠ .idle → t.eng = s.eng ∧ sameInputs s t

/-- `r` is an infinite run whose step number `n` the environment offers the event `es n` (20_memory.md R59; log 1). -/
def IsRun (es : Nat → Event) (r : Nat → State) : Prop := ∀ n, step ((r n).offer (es n)) = .next (r (n + 1))

/-- The Timer is weakly fair: from every moment on a tick comes (00_scope.md R7). -/
def TicksFair (es : Nat → Event) : Prop := ∀ n, ∃ m, n ≤ m ∧ es m = .tick

/-- The Transport is weakly fair: an Engine that stays in SEND has a byte accepted (00_scope.md R7,
41_link_operations.md R123). -/
def AcceptFair (es : Nat → Event) (r : Nat → State) : Prop :=
  ∀ n, (∀ m, n ≤ m → (r m).eng = .send) → ∃ m, n ≤ m ∧ es m = .engine true

/-- A weakly fair run, as 00_scope.md R7 assumes every run to be (92_eei_decisions.md D1, D19; log 14). -/
structure FairRun (es : Nat → Event) (r : Nat → State) : Prop where
  run : IsRun es r
  ticks : TicksFair es
  accept : AcceptFair es r

/-- The packet `p` passes the validator (40_codec.md R99). -/
def passes (verify : Bool) (p : List Byte) : Prop := verify = false ∨ packetSum p = packetChecksum p

/-- The reference driver's decisions over a list of call results, one a call; results left over once no call is being
made are not used. -/
def followCalls (quality : Word32) : DriverNext → List CallResult → DriverNext
  | d, [] => d
  | .call _ _ why, r :: rs => followCalls quality (afterCall quality why r) rs
  | .retrieve, _ :: _ => .retrieve
  | .finish x, _ :: _ => .finish x

end Sys2Proof
end

