-- ==== Sys2Proof/Certificates/Slice0/Obligations.lean ====
section
/-!
DEFINITION. The statements for the provers. Each docstring names the rule of spec/ it formalises.
-/
open Sys2Proof Sys2Proof.Machine

/-! ### Encoding -/

/-- Words written out from 30_encoding.md R79, R80 and R84 decode to the instructions they stand for (byte layout: log 3):
the four CTRL words, one with VERIFY, TOFATAL and a reserved bit, and commands of every family. Two words stand for no
instruction and decode to an error with a name, which is the model's choice (log 12): a CTRL word without START, and
opcode 0x12 with parameter 2; the machine still makes their bus writes (R81, R86). -/
def Obligations.SampleWordsDecode : Prop :=
  decode .ctrl [0x01, 0x00, 0x00, 0x00] = .ok (.exchange ⟨false, false⟩) ∧
  decode .ctrl [0x03, 0x00, 0x00, 0x00] = .ok (.recvData ⟨false, false⟩) ∧
  decode .ctrl [0x05, 0x00, 0x00, 0x00] = .ok (.sendCmd ⟨false, false⟩) ∧
  decode .ctrl [0x3F, 0x00, 0x00, 0x80] = .ok (.recvCmd ⟨true, true⟩) ∧
  decode .ctrl [0x1E, 0x00, 0x00, 0x00] = .error .notALaunch ∧
  decode .cmdPacket [0x01, 0x00, 0x00, 0x00, 0x00, 0x00, 0x01, 0x00, 0x00, 0x00]
    = .ok (.openCmd 0 ⟨false, ⟨false, false⟩⟩) ∧
  decode .cmdPacket [0x12, 0x00, 0x01, 0x00, 0x00, 0x00, 0x0D, 0x00, 0x00, 0x00]
    = .ok (.ledOn ⟨true, ⟨true, false⟩⟩) ∧
  decode .cmdPacket [0x12, 0x00, 0x00, 0x00, 0x00, 0x00, 0x01, 0x00, 0x00, 0x00]
    = .ok (.ledOff ⟨false, ⟨false, false⟩⟩) ∧
  decode .cmdPacket [0x22, 0x00, 0xFF, 0xFF, 0xFF, 0xFF, 0x11, 0x00, 0x00, 0x00]
    = .ok (.enrollStart 0xFFFFFFFF ⟨false, ⟨false, true⟩⟩) ∧
  decode .cmdPacket [0x40, 0x00, 0xC7, 0x00, 0x00, 0x00, 0x01, 0x00, 0x00, 0x00]
    = .ok (.deleteId 199 ⟨false, ⟨false, false⟩⟩) ∧
  decode .cmdPacket [0x12, 0x00, 0x02, 0x00, 0x00, 0x00, 0x01, 0x00, 0x00, 0x00] = .error (.ledParameter 2)

/-- Decoding the words of any instruction gives it back, every operand at every value (30_encoding.md R79 to R84). -/
def Obligations.DecodeOfEncodeIsIdentity : Prop :=
  ∀ i : Instr, decode i.format (encodeBytes i) = .ok i

/-- Running a decoded instruction makes exactly the bus writes its words stand for, whatever the reserved bits of the
CTRL word are: the first at once, those of PARAM and CTRL as the host's pending writes
(30_encoding.md R79, R81; 42_protocol_commands.md R124; 20_memory.md R59). -/
def Obligations.DecodedActionMakesItsBusWrites : Prop :=
  ∀ (a : HostAction) (i : Instr) (s : State), decodeAction a = .ok i → exec i s = .next (s.perform a)

/-- Every CTRL word with START = 1 is one of the four operations, selected by bits 2:1, with VERIFY in bit 3 and
TOFATAL in bit 4; the words of 30_encoding.md R80. -/
def Obligations.EveryStartWordIsAnOperation : Prop :=
  (∀ w : Word32, w.getLsbD 0 = true →
    (w.getLsbD 2 = false → w.getLsbD 1 = false →
      decodeAction (.ctrl w) = .ok (.exchange ⟨w.getLsbD 3, w.getLsbD 4⟩)) ∧
    (w.getLsbD 2 = false → w.getLsbD 1 = true →
      decodeAction (.ctrl w) = .ok (.recvData ⟨w.getLsbD 3, w.getLsbD 4⟩)) ∧
    (w.getLsbD 2 = true → w.getLsbD 1 = false →
      decodeAction (.ctrl w) = .ok (.sendCmd ⟨w.getLsbD 3, w.getLsbD 4⟩)) ∧
    (w.getLsbD 2 = true → w.getLsbD 1 = true →
      decodeAction (.ctrl w) = .ok (.recvCmd ⟨w.getLsbD 3, w.getLsbD 4⟩))) ∧
  (∀ v t : Bool,
    encode (.exchange ⟨v, t⟩) = .ctrl (0x1#32 + (if v then 0x8#32 else 0#32) + (if t then 0x10#32 else 0#32)) ∧
    encode (.recvData ⟨v, t⟩) = .ctrl (0x3#32 + (if v then 0x8#32 else 0#32) + (if t then 0x10#32 else 0#32)) ∧
    encode (.sendCmd ⟨v, t⟩) = .ctrl (0x5#32 + (if v then 0x8#32 else 0#32) + (if t then 0x10#32 else 0#32)) ∧
    encode (.recvCmd ⟨v, t⟩) = .ctrl (0x7#32 + (if v then 0x8#32 else 0#32) + (if t then 0x10#32 else 0#32)))

/-- The wire bytes the spec gives for the commands (42_protocol_commands.md R125 to R137). -/
def Obligations.CommandWireBytes : Prop :=
  encodeCommand 0x0001 0 = [0x55, 0xAA, 0x01, 0, 0, 0, 0, 0, 0x01, 0, 0x01, 0x01] ∧
  encodeCommand 0x0002 0 = [0x55, 0xAA, 0x01, 0, 0, 0, 0, 0, 0x02, 0, 0x02, 0x01] ∧
  encodeCommand 0x0012 1 = [0x55, 0xAA, 0x01, 0, 0x01, 0, 0, 0, 0x12, 0, 0x13, 0x01] ∧
  encodeCommand 0x0012 0 = [0x55, 0xAA, 0x01, 0, 0, 0, 0, 0, 0x12, 0, 0x12, 0x01] ∧
  encodeCommand 0x0022 5 = [0x55, 0xAA, 0x01, 0, 0x05, 0, 0, 0, 0x22, 0, 0x27, 0x01] ∧
  encodeCommand 0x0022 0xFFFFFFFF = [0x55, 0xAA, 0x01, 0, 0xFF, 0xFF, 0xFF, 0xFF, 0x22, 0, 0x1E, 0x05] ∧
  encodeCommand 0x0023 0 = [0x55, 0xAA, 0x01, 0, 0, 0, 0, 0, 0x23, 0, 0x23, 0x01] ∧
  encodeCommand 0x0024 0 = [0x55, 0xAA, 0x01, 0, 0, 0, 0, 0, 0x24, 0, 0x24, 0x01] ∧
  encodeCommand 0x0025 0 = [0x55, 0xAA, 0x01, 0, 0, 0, 0, 0, 0x25, 0, 0x25, 0x01] ∧
  encodeCommand 0x0026 0 = [0x55, 0xAA, 0x01, 0, 0, 0, 0, 0, 0x26, 0, 0x26, 0x01] ∧
  encodeCommand 0x0040 7 = [0x55, 0xAA, 0x01, 0, 0x07, 0, 0, 0, 0x40, 0, 0x47, 0x01] ∧
  encodeCommand 0x0041 0 = [0x55, 0xAA, 0x01, 0, 0, 0, 0, 0, 0x41, 0, 0x41, 0x01] ∧
  encodeCommand 0x0051 0 = [0x55, 0xAA, 0x01, 0, 0, 0, 0, 0, 0x51, 0, 0x51, 0x01] ∧
  encodeCommand 0x0060 0 = [0x55, 0xAA, 0x01, 0, 0, 0, 0, 0, 0x60, 0, 0x60, 0x01] ∧
  encodeCommand 0x0060 1 = [0x55, 0xAA, 0x01, 0, 0x01, 0, 0, 0, 0x60, 0, 0x61, 0x01]

/-! ### The step and the launch -/

/-- When the next event issues a host action that decodes to an instruction and no write of an earlier action is pending,
the step runs it, the event taken off the list (the machine has no program counter: 10_state.md R16; log 2). A pending
write is a step of its own: the event `hostWrite` makes the oldest one, and an action issued while writes are pending
waits for them, since host transactions take effect in program order (20_memory.md R59; log 4). -/
def Obligations.StepRunsDecodedInstruction : Prop :=
  (∀ (s : State) (a : HostAction) (i : Instr) (rest : List Event),
    s.inputs = .issue a :: rest → decodeAction a = .ok i →
    (s.host.pending = [] → step s = exec i { s with inputs := rest }) ∧
    (s.host.pending ≠ [] → step s = .next s.hostWrite)) ∧
  (∀ (s : State) (rest : List Event), s.inputs = .hostWrite :: rest →
    step s = .next { s with inputs := rest }.hostWrite) ∧
  (∀ (s : State) (r : Reg) (v : Word32) (later : List (Reg × Word32)), s.host.pending = (r, v) :: later →
    s.hostWrite = { s with host := { s.host with pending := later } }.wr r v)

/-- In every state a step answers a next state: the block raises no fault that stops the machine
(60_exceptions.md R169). -/
def Obligations.EveryStepAnswersNext : Prop := ∀ s : State, ∃ t, step s = .next t

/-- In an idle block each of the four operations launches as 41_link_operations.md R105 says: CTRL's fields set, DONE,
TIMEOUT and CSUMERR cleared and BUSYERR kept, STALL_COUNT and RX_COUNT 0; EXCHANGE and SEND_CMD encode and enter SEND
with `tx_idx` 0, RECV_DATA and RECV_CMD enter RECV; afterwards STATUS.BUSY = 1. In a locked block nothing is launched
and BUSYERR is set. From reset an EXCHANGE leaves STATUS = 0x00000001. -/
def Obligations.BlockOperationsLaunch : Prop :=
  ∀ (pol : Policy) (s : State),
    (s.eng = .idle →
      exec (.exchange pol) s = .next (launchedSend .exchange pol s.cmd s.param s) ∧
      exec (.sendCmd pol) s = .next (launchedSend .sendCmd pol s.cmd s.param s) ∧
      exec (.recvData pol) s = .next (launchedRecv .recvData pol s) ∧
      exec (.recvCmd pol) s = .next (launchedRecv .recvCmd pol s) ∧
      (launchedSend .exchange pol s.cmd s.param s).statusWord.getLsbD 0 = true ∧
      (launchedSend .sendCmd pol s.cmd s.param s).statusWord.getLsbD 0 = true ∧
      (launchedRecv .recvData pol s).statusWord.getLsbD 0 = true ∧
      (launchedRecv .recvCmd pol s).statusWord.getLsbD 0 = true) ∧
    (s.eng ≠ .idle →
      exec (.exchange pol) s = .next (refusedWrite s) ∧ exec (.sendCmd pol) s = .next (refusedWrite s) ∧
      exec (.recvData pol) s = .next (refusedWrite s) ∧ exec (.recvCmd pol) s = .next (refusedWrite s)) ∧
    (launchedSend .exchange ⟨false, false⟩ State.reset.cmd State.reset.param State.reset).statusWord = 0x1#32

/-- OPEN, CLOSE, LED_ON and LED_OFF in an idle block: CMD is written, and the two writes that follow, of PARAM and CTRL,
launch EXCHANGE (or SEND_CMD, by the launch) (42_protocol_commands.md R124 to R128; 20_memory.md R59). -/
def Obligations.SessionAndLedCommandsLaunch : Prop :=
  ∀ (p : Word32) (l : Launch) (s : State), s.eng = .idle →
    exec (.openCmd p l) s = .next (commandStarted 0x0001 p l s) ∧
    exec (.closeCmd p l) s = .next (commandStarted 0x0002 p l s) ∧
    exec (.ledOn l) s = .next (commandStarted 0x0012 1 l s) ∧
    exec (.ledOff l) s = .next (commandStarted 0x0012 0 l s) ∧
    (s.host.pending = [] → ∀ (c : Word16) (q : Word32), (commandStarted c q l s).hostWrite.hostWrite
      = launchedSend (if l.sendOnly then .sendCmd else .exchange) l.policy c q s)

/-- ENROLL_START and ENROLL1 to ENROLL3 in an idle block: CMD is written, and the writes of PARAM and CTRL that follow
launch the operation (42_protocol_commands.md R124, R129 to R132; 20_memory.md R59). -/
def Obligations.EnrollCommandsLaunch : Prop :=
  ∀ (p : Word32) (l : Launch) (s : State), s.eng = .idle →
    exec (.enrollStart p l) s = .next (commandStarted 0x0022 p l s) ∧
    exec (.enroll1 p l) s = .next (commandStarted 0x0023 p l s) ∧
    exec (.enroll2 p l) s = .next (commandStarted 0x0024 p l s) ∧
    exec (.enroll3 p l) s = .next (commandStarted 0x0025 p l s) ∧
    (s.host.pending = [] → ∀ (c : Word16) (q : Word32), (commandStarted c q l s).hostWrite.hostWrite
      = launchedSend (if l.sendOnly then .sendCmd else .exchange) l.policy c q s)

/-- IS_PRESS_FINGER, DELETE_ID, DELETE_ALL, IDENTIFY and CAPTURE_FINGER in an idle block: CMD is written, and the writes
of PARAM and CTRL that follow launch the operation (42_protocol_commands.md R124, R133 to R137; 20_memory.md R59). -/
def Obligations.FingerAndDatabaseCommandsLaunch : Prop :=
  ∀ (p : Word32) (l : Launch) (s : State), s.eng = .idle →
    exec (.isPressFinger p l) s = .next (commandStarted 0x0026 p l s) ∧
    exec (.deleteId p l) s = .next (commandStarted 0x0040 p l s) ∧
    exec (.deleteAll p l) s = .next (commandStarted 0x0041 p l s) ∧
    exec (.identify p l) s = .next (commandStarted 0x0051 p l s) ∧
    exec (.captureFinger p l) s = .next (commandStarted 0x0060 p l s) ∧
    (s.host.pending = [] → ∀ (c : Word16) (q : Word32), (commandStarted c q l s).hostWrite.hostWrite
      = launchedSend (if l.sendOnly then .sendCmd else .exchange) l.policy c q s)

/-- In a locked block (SEND, RECV, SLEEP or HALTED) every instruction is refused: BUSYERR is set, and nothing else of
the block changes; a block operation leaves no further write, and the two further writes of a command are refused too
(20_memory.md R56, R59; 60_exceptions.md R157). -/
def Obligations.LockedBlockRefusesInstructions : Prop :=
  ∀ (i : Instr) (s : State), s.eng ≠ .idle → ∃ later : List (Reg × Word32),
    exec i s = .next ((refusedWrite s).pend later) ∧ (i.opcode = none → later = []) ∧
    (s.host.pending = [] → ((refusedWrite s).pend later).hostWrite.hostWrite = refusedWrite s)

/-- After an instruction that sends is launched (a command with its two further writes), TX_BUF reads as the Command
packet of CMD and PARAM and TX_CSUM is its last two bytes; RECV_DATA and RECV_CMD leave TX_BUF and TX_CSUM unchanged
(40_codec.md R96). -/
def Obligations.LaunchEncodesThePacket : Prop :=
  ∀ (i : Instr) (s t : State), s.eng = .idle → s.host.pending = [] → exec i s = .next t →
    let u := t.hostWrite.hostWrite
    (i.sends = true → u.eng = .send ∧ u.txBytes = encodeCommand u.cmd u.param ∧
      u.txCsum = le16 (u.txBuf 10) (u.txBuf 11)) ∧
    (i.sends = false → u.eng = .recv ∧ u.txCsum = s.txCsum ∧ sameBytesBut (fun _ => False) s u)

/-- The frame of every instruction, of its own step and, for a command, of its two further writes too: LAST_PARAM,
LAST_ACK, RX_CSUM, POLL_INTERVAL, MAX_POLLS, INT_EN, `sleep_left`, the Transport and the host's software stay; of the
flags, BUSYERR stays unless the block was locked, when it is set; every byte outside TX_BUF stays. The block operations
keep CMD and PARAM; RECV_DATA and RECV_CMD store nothing and keep TX_CSUM and `tx_idx`; a command's own step writes no
register but CMD (41_link_operations.md R105, R107, R109; 20_memory.md R59). -/
def Obligations.InstructionFrame : Prop :=
  ∀ (i : Instr) (s t : State), exec i s = .next t →
    InstrFrame i s t ∧ (s.host.pending = [] → InstrFrame i s t.hostWrite.hostWrite) ∧
    (i.opcode ≠ none → t.mem = s.mem ∧ t.eng = s.eng ∧ t.ctrl = s.ctrl ∧ t.param = s.param ∧ t.txIdx = s.txIdx ∧
      t.txCsum = s.txCsum ∧ t.rxCount = s.rxCount ∧ t.stallCount = s.stallCount)

/-- A CTRL write with START = 0 to an idle block sets OP, VERIFY and TOFATAL and launches nothing; the reserved bits
31:5 of any CTRL write are ignored (30_encoding.md R81). -/
def Obligations.CtrlWriteWithoutStart : Prop :=
  ∀ (s : State) (w : Word32),
    (s.eng = .idle → w.getLsbD 0 = false → s.wr .ctrl w =
      { s with ctrl := { op := ctrlOp w, verify := w.getLsbD 3, toFatal := w.getLsbD 4 },
               host := { s.host with bus := .okay } }) ∧
    (∀ w' : Word32, (∀ k, k < 5 → w'.getLsbD k = w.getLsbD k) → s.wr .ctrl w' = s.wr .ctrl w)

/-- Any 16-bit opcode and any 32-bit parameter is encoded and launched unchanged, listed or not
(30_encoding.md R86). -/
def Obligations.AnyOpcodeAndParameterIsCarried : Prop :=
  ∀ (s : State) (rest : List Event) (op : Word16) (p : Word32) (pol : Policy), s.eng = .idle →
    s.host.pending = [] → s.inputs = .issue (.command op p (ctrlWord true .exchange pol)) :: rest →
    ∃ t, step s = .next t ∧ t.hostWrite.hostWrite = launchedSend .exchange pol op p { s with inputs := rest }

/-! ### Codec -/

/-- The checksum is the sum of the bytes truncated to 16 bits, and summing into a 16-bit accumulator that wraps at each
addition gives the same result; no byte gives 0 (40_codec.md R91). -/
def Obligations.ChecksumIsTheTruncatedSum : Prop :=
  ∀ bs : List Byte,
    (checksumOf bs).toNat = (bs.map BitVec.toNat).sum % 65536 ∧
    checksumOf bs = bs.foldl (fun acc b => acc + b.setWidth 16) 0#16 ∧ checksumOf [] = 0#16

/-- The checksum does not depend on the bytes' order, any single-byte corruption changes it, and two corruptions that
move the sum by opposite amounts do not (40_codec.md R92). -/
def Obligations.ChecksumDetectsSingleByteCorruption : Prop :=
  (∀ bs cs : List Byte, bs.Perm cs → checksumOf bs = checksumOf cs) ∧
  (∀ (bs : List Byte) (i : Nat) (b : Byte), i < bs.length → b ≠ packetByte bs i →
    checksumOf (bs.set i b) ≠ checksumOf bs) ∧
  (∀ (as bs cs : List Byte) (x y x' y' : Byte), x.toNat + y.toNat = x'.toNat + y'.toNat →
    checksumOf (as ++ x :: bs ++ y :: cs) = checksumOf (as ++ x' :: bs ++ y' :: cs))

/-- A Command packet's checksum is 0x0100 plus the sum of bytes 4 to 9, in 0x0100 to 0x06FA; ten bytes sum to at most
0x09F6; a Data packet of 498 bytes 0xFF has checksum 0xF10E (40_codec.md R93). -/
def Obligations.ChecksumRanges : Prop :=
  (∀ (op : Word16) (p : Word32),
    (checksumOf (commandBody op p)).toNat
      = 0x0100 + (((encodeCommand op p).drop 4).take 6 |>.map BitVec.toNat).sum ∧
    0x0100 ≤ (checksumOf (commandBody op p)).toNat ∧ (checksumOf (commandBody op p)).toNat ≤ 0x06FA) ∧
  (∀ bs : List Byte, bs.length = 10 → byteSum bs ≤ 0x09F6) ∧
  (∀ bs : List Byte, bs.length = 502 → byteSum bs ≤ 0x1F40A) ∧
  byteSum (List.replicate 502 0xFF#8) = 0x1F40A ∧ 0x1F40A > 0xFFFF ∧
  packetSum (dataPacket (List.replicate 498 0xFF#8)) = 0xF10E#16

/-- Bytes 0 to 3 of every encoded Command packet are 55 AA 01 00 (40_codec.md R94). -/
def Obligations.EncodedPacketPrefix : Prop :=
  ∀ (op : Word16) (p : Word32),
    packetByte (encodeCommand op p) 0 = 0x55#8 ∧ packetByte (encodeCommand op p) 1 = 0xAA#8 ∧
    packetByte (encodeCommand op p) 2 = 0x01#8 ∧ packetByte (encodeCommand op p) 3 = 0x00#8

/-- Decoding an encoded packet gives its parameter and opcode back, and its checksum field is the checksum of the ten
bytes before it (40_codec.md R101). -/
def Obligations.CodecRoundTrip : Prop :=
  ∀ (op : Word16) (p : Word32),
    decodeCommand (encodeCommand op p) = (p, op) ∧
    checksumOf ((encodeCommand op p).take 10)
      = le16 (packetByte (encodeCommand op p) 10) (packetByte (encodeCommand op p) 11)

/-! ### The SEND phase -/

/-- The SEND phase: an accepted byte is pushed in index order and `tx_idx` advances; the step that pushes TX_BUF[11]
enters RECV for EXCHANGE and sets DONE and IDLE for SEND_CMD (41_link_operations.md R110, R111). -/
def Obligations.SendByteSteps : Prop :=
  ∀ s : State, s.eng = .send →
    (s.txIdx < 11 → s.engineStep true =
      { s with txStream := s.txStream ++ [s.txBuf s.txIdx], txIdx := s.txIdx + 1, draws := s.draws + 1 }) ∧
    (s.txIdx = 11 → s.ctrl.op = .exchange → s.engineStep true =
      { s with txStream := s.txStream ++ [s.txBuf 11], txIdx := 12, eng := .recv, draws := s.draws + 1 }) ∧
    (s.txIdx = 11 → s.ctrl.op = .sendCmd → s.engineStep true =
      { s with txStream := s.txStream ++ [s.txBuf 11], txIdx := 12, flags := { s.flags with done := true },
               eng := .idle, draws := s.draws + 1 })

/-- The Engine waits in SEND while the Transport accepts no byte, and has no step of its own in IDLE, SLEEP and HALTED
(41_link_operations.md R104, R123). In a run whose ticks and TX acceptance are weakly fair (00_scope.md R7) no SEND phase
and no SLEEP lasts forever; a run in which no byte is accepted, and no reset comes, stays in SEND with BUSY = 1: a hang, not
a fault (R123). -/
def Obligations.EngineHoldsAndFairRunsMoveOn : Prop :=
  (∀ (s : State) (accept : Bool),
    (s.eng = .send → s.engineStep false = s) ∧ (s.eng = .idle → s.engineStep accept = s) ∧
    (s.eng = .sleep → s.engineStep accept = s) ∧ (s.eng = .halted → s.engineStep accept = s)) ∧
  (∀ (es : Nat → Event) (r : Nat → State), FairRun es r → Inv (r 0) →
    ∀ n, (∃ m, n ≤ m ∧ (r m).eng ≠ .send) ∧ (∃ m, n ≤ m ∧ (r m).eng ≠ .sleep)) ∧
  (∀ (es : Nat → Event) (r : Nat → State) (n : Nat), IsRun es r → (r n).eng = .send →
    (∀ m, n ≤ m → es m ≠ .engine true ∧ es m ≠ .reset) → ∀ m, n ≤ m → (r m).eng = .send ∧ (r m).busy = true)

/-! ### The RECV phase -/

/-- A poll that finds a byte stores it at RX_BUF[RX_COUNT] and counts it; while `rx_len` bytes are not collected the
Engine stays in RECV and nothing else changes: the rest of the FIFO and STALL_COUNT stay (41_link_operations.md R113).
`rxLen` is `rx_len`. -/
def Obligations.PollTakesOneByte : Prop :=
  ∀ (s : State) (accept : Bool) (b : Byte) (rest : List Byte), s.eng = .recv → s.rxFifo = b :: rest →
    s.rxCount.toNat < 503 → rxLen s.ctrl.op ≠ some (s.rxCount.toNat + 1) →
    s.engineStep accept =
      { s with mem := Memory.write s.mem (0x200 + s.rxCount.toNat) b, rxFifo := rest, rxCount := s.rxCount + 1#10,
               draws := s.draws + 1 }

/-- The step that stores byte `rx_len - 1` completes the receive: RX_CSUM gets the received and the computed checksum;
with VERIFY = 1 and a mismatch CSUMERR is set and LAST_PARAM and LAST_ACK stay; otherwise a 12-byte packet is decoded
into them, a 504-byte packet is not, and DONE is set; the Engine is IDLE
(41_link_operations.md R117; 40_codec.md R98, R99, R100). -/
def Obligations.ReceiveCompletes : Prop :=
  ∀ (s : State) (accept : Bool) (b : Byte) (rest : List Byte), s.eng = .recv → s.rxFifo = b :: rest →
    rxLen s.ctrl.op = some (s.rxCount.toNat + 1) →
    let p := s.collected ++ [b]
    let t := { s with mem := Memory.write s.mem (0x200 + s.rxCount.toNat) b, rxFifo := rest,
                      rxCount := s.rxCount + 1#10, rxCsum := packetChecksum p ++ packetSum p,
                      eng := .idle, draws := s.draws + 1 }
    (s.ctrl.verify = true → packetSum p ≠ packetChecksum p →
      s.engineStep accept = { t with flags := { s.flags with csumErr := true } }) ∧
    (passes s.ctrl.verify p → s.rxCount.toNat + 1 = 12 →
      s.engineStep accept = { t with flags := { s.flags with done := true }, lastParam := packetParameter p,
                                     lastAck := packetCommand p }) ∧
    (passes s.ctrl.verify p → s.rxCount.toNat + 1 = 504 →
      s.engineStep accept = { t with flags := { s.flags with done := true } })

/-- An empty poll with POLL_INTERVAL not 0 sleeps POLL_INTERVAL ticks; with POLL_INTERVAL = 0 it stalls in the same
step (41_link_operations.md R114). -/
def Obligations.EmptyPollSleepsOrStalls : Prop :=
  ∀ (s : State) (accept : Bool), s.eng = .recv → s.rxFifo = [] →
    (s.pollInterval ≠ 0#16 → s.engineStep accept =
      { s with sleepLeft := s.pollInterval, eng := .sleep, draws := s.draws + 1 }) ∧
    (s.pollInterval = 0#16 → s.engineStep accept = s.stall.nextDraw)

/-- A tick in SLEEP counts down; the tick that reaches 0 stalls; in any other state a tick changes nothing. A stall
counts, and times out when the count is at least MAX_POLLS, so that MAX_POLLS = 0 behaves as 1; otherwise the Engine
polls again; a byte does not reset the count (41_link_operations.md R115). -/
def Obligations.TickAndStall : Prop :=
  (∀ s : State, s.eng ≠ .sleep → s.tick = s) ∧
  (∀ s : State, s.eng = .sleep → s.sleepLeft ≠ 1#16 → s.tick = { s with sleepLeft := s.sleepLeft - 1#16 }) ∧
  (∀ s : State, s.eng = .sleep → s.sleepLeft = 1#16 → s.tick = { s with sleepLeft := 0#16 }.stall) ∧
  (∀ s : State, s.maxPolls.toNat ≤ (s.stallCount + 1#16).toNat →
    s.stall = { s with stallCount := s.stallCount + 1#16 }.raise .timeout) ∧
  (∀ s : State, (s.stallCount + 1#16).toNat < s.maxPolls.toNat →
    s.stall = { s with stallCount := s.stallCount + 1#16, eng := .recv }) ∧
  (∀ s : State, s.maxPolls = 0#16 → s.stall.flags.timeout = true) ∧
  (∀ (s : State) (accept : Bool), s.eng = .recv → s.rxFifo ≠ [] → (s.engineStep accept).stallCount = s.stallCount)

/-- A Timeout sets TIMEOUT and leaves the Engine HALTED with TOFATAL = 1 and IDLE otherwise; a ChecksumMismatch sets
CSUMERR and IDLE; a BusyReject sets BUSYERR and ends nothing; no error changes anything else
(60_exceptions.md R156 to R158; 41_link_operations.md R116). -/
def Obligations.RaisingAnError : Prop :=
  ∀ s : State,
    s.raise .timeout = { s with flags := { s.flags with timeout := true },
                                eng := if s.ctrl.toFatal then .halted else .idle } ∧
    s.raise .checksumMismatch = { s with flags := { s.flags with csumErr := true }, eng := .idle } ∧
    s.raise .busyReject = { s with flags := { s.flags with busyErr := true } }

/-- With no byte ever available a receive makes exactly K = max(MAX_POLLS, 1) empty polls, each followed by
POLL_INTERVAL ticks of SLEEP, and then times out with STALL_COUNT = K, not earlier (41_link_operations.md R122). -/
def Obligations.SilentReceiveTimesOutExactly : Prop :=
  ∀ (s : State) (rest : List Event),
    let pi := s.pollInterval.toNat
    let k := max s.maxPolls.toNat 1
    s.eng = .recv → s.rxFifo = [] → s.stallCount = 0#16 →
    s.inputs = (List.replicate k (.engine true :: List.replicate pi .tick)).flatten ++ rest →
    (∃ t, Host.Core.run core (k * (pi + 1)) s = .next t ∧ t.flags.timeout = true ∧ t.stallCount.toNat = k ∧
      t.eng = (if s.ctrl.toFatal then .halted else .idle) ∧ t.rxCount = s.rxCount ∧ t.inputs = rest ∧
      sameReply s t ∧ t.rxCsum = s.rxCsum ∧ t.txCsum = s.txCsum ∧ t.mem = s.mem) ∧
    (∀ j, j < k → ∃ t, Host.Core.run core (j * (pi + 1)) s = .next t ∧ t.eng = .recv ∧ t.stallCount.toNat = j ∧
      t.flags = s.flags)

/-! ### Whole operations -/

/-- EXCHANGE from launch to end (41_link_operations.md R106): with an empty RX FIFO, the Transport accepting every byte
and the module replying with 12 bytes after the twelfth, the TX stream gets the 12 bytes of the encode of CMD and
PARAM, RX_BUF[0..12) is the reply, and the reply is rejected or decoded. -/
def Obligations.ExchangeRunsToItsEnd : Prop :=
  ∀ (s : State) (pol : Policy) (reply : List Byte) (rest : List Event),
    s.eng = .idle → s.host.pending = [] → s.rxFifo = [] → s.moduleWaiting = [] →
    (∀ d, s.platform.rxFifoDepth = some d → 12 ≤ d) →
    reply.length = 12 →
    s.inputs = .issue (encode (.exchange pol)) :: (List.replicate 12 (.engine true) ++ reply.map .moduleByte ++
      List.replicate 12 (.engine true) ++ rest) →
    ∃ t, Host.Core.run core 37 s = .next t ∧ t.inputs = rest ∧ t.eng = .idle ∧
      t.txStream = s.txStream ++ encodeCommand s.cmd s.param ∧ t.rxFifo = [] ∧ t.rxCount = 12#10 ∧
      t.stallCount = 0#16 ∧ t.rxBytes 0 12 = reply ∧ t.rxCsum = packetChecksum reply ++ packetSum reply ∧
      (passes pol.verify reply → t.flags = { s.flags with done := true, timeout := false, csumErr := false } ∧
        t.lastParam = packetParameter reply ∧ t.lastAck = packetCommand reply) ∧
      (¬ passes pol.verify reply → t.flags = { s.flags with done := false, timeout := false, csumErr := true } ∧
        sameReply s t)

/-- SEND_CMD from launch to end (41_link_operations.md R108): the TX stream gets the 12 bytes, DONE is set, the Engine is
IDLE; RX_BUF, RX_COUNT (0), RX_CSUM, LAST_PARAM and LAST_ACK stay, and the RX FIFO is not touched. -/
def Obligations.SendCmdRunsToItsEnd : Prop :=
  ∀ (s : State) (pol : Policy) (rest : List Event), s.eng = .idle → s.host.pending = [] →
    s.inputs = .issue (encode (.sendCmd pol)) :: (List.replicate 12 (.engine true) ++ rest) →
    ∃ t, Host.Core.run core 13 s = .next t ∧ t.inputs = rest ∧ t.eng = .idle ∧
      t.txStream = s.txStream ++ encodeCommand s.cmd s.param ∧ t.rxFifo = s.rxFifo ∧ t.rxCount = 0#10 ∧
      t.flags = { s.flags with done := true, timeout := false, csumErr := false } ∧
      t.rxCsum = s.rxCsum ∧ sameReply s t ∧ sameBytesBut inTxBuf s t

/-- RECV_DATA and RECV_CMD from launch to end with the packet already in the RX FIFO (41_link_operations.md R107, R109):
exactly `rx_len` bytes are taken in FIFO order and those beyond stay (R113), STALL_COUNT is 0, nothing is sent, and the
packet is rejected or accepted; RECV_CMD decodes it, RECV_DATA leaves LAST_PARAM and LAST_ACK. -/
def Obligations.ReceiveRunsToItsEnd : Prop :=
  ∀ (s : State) (pol : Policy) (data : Bool) (p extra : List Byte) (rest : List Event),
    s.eng = .idle → s.host.pending = [] → s.rxFifo = p ++ extra → p.length = (if data then 504 else 12) →
    s.inputs = .issue (encode (if data then .recvData pol else .recvCmd pol)) ::
      (List.replicate p.length (.engine true) ++ rest) →
    ∃ t, Host.Core.run core (p.length + 1) s = .next t ∧ t.inputs = rest ∧ t.eng = .idle ∧
      t.txStream = s.txStream ∧ t.txCsum = s.txCsum ∧ t.rxFifo = extra ∧ t.rxCount.toNat = p.length ∧
      t.stallCount = 0#16 ∧ t.rxBytes 0 p.length = p ∧ t.rxCsum = packetChecksum p ++ packetSum p ∧
      (passes pol.verify p → t.flags = { s.flags with done := true, timeout := false, csumErr := false } ∧
        (data = false → t.lastParam = packetParameter p ∧ t.lastAck = packetCommand p) ∧
        (data = true → sameReply s t)) ∧
      (¬ passes pol.verify p → t.flags = { s.flags with done := false, timeout := false, csumErr := true } ∧
        sameReply s t)

/-! ### Rules of the whole machine -/

/-- How operations and runs end (70_reset_and_hazards.md R175). From a state that meets the invariant, a step other than
reset that takes BUSY to 0 ends the operation with exactly one of DONE, TIMEOUT and CSUMERR set, and in HALTED just when
that is a fatal timeout. HALTED is left by reset only (60_exceptions.md R158, R172). A run is finished when the host
program has ended and the Engine is not in SEND, RECV or SLEEP; past its end the program takes no line. That a begun host
action and the reference driver must have ended too is the model's choice (log 22). -/
def Obligations.OperationsEndAndOnlyResetLeavesHalted : Prop :=
  (∀ s t : State, Inv s → s.busy = true → s.nextEvent ≠ .reset → step s = .next t → t.busy = false →
    t.operationEnded = true ∧ oneOutcome t.flags = true ∧
    (t.eng = .halted ↔ t.flags.timeout = true ∧ t.ctrl.toFatal = true)) ∧
  (∀ s t : State, s.eng = .halted → step s = .next t →
    t.eng = .halted ∨ (s.nextEvent = .reset ∧ t.eng = .idle)) ∧
  (∀ s : State, s.runFinished = true ↔
    (s.host.program.length ≤ s.host.pc ∧ s.host.pending = [] ∧ driverFree s.driver.phase = true) ∧
    s.eng ≠ .send ∧ s.eng ≠ .recv ∧ s.eng ≠ .sleep) ∧
  (∀ s : State, s.host.program.length ≤ s.host.pc → s.hostTurn = s)

/-- While the block is locked no step but reset changes CTRL, CMD, PARAM, POLL_INTERVAL or MAX_POLLS: the operation in
flight sees them constant (20_memory.md R56). -/
def Obligations.LockedInputsStayConstant : Prop :=
  ∀ s t : State, s.eng ≠ .idle → s.nextEvent ≠ .reset → step s = .next t → sameInputs s t

/-- LAST_PARAM and LAST_ACK change, but for reset, only in the Engine's step that completes a 12-byte receive with DONE
(40_codec.md R98). -/
def Obligations.ReplyChangesOnlyAtDecode : Prop :=
  ∀ s t : State, s.nextEvent ≠ .reset → step s = .next t → ¬ sameReply s t →
    (∃ accept, s.nextEvent = .engine accept) ∧ s.eng = .recv ∧ t.eng = .idle ∧ t.flags.done = true ∧
      t.rxCount = 12#10

/-- Only a step in RECV takes a byte from the RX FIFO, its oldest, and in EXCHANGE no byte is popped before the twelfth is
pushed (in a state that meets the invariant); no other step drops, reorders or duplicates one, the block's reset
included, but for the platform's reset of the Transport, which drains the FIFO and changes nothing else of the block
(10_state.md R40, 41_link_operations.md R120, 70_reset_and_hazards.md R178; what that reset leaves is the model's choice:
log 21). While an operation is in progress that reset changes nothing (20_memory.md R65). -/
def Obligations.OnlyReceivePopsTheFifo : Prop :=
  ∀ s t : State, step s = .next t →
    (s.rxFifo <+: t.rxFifo ∨
      (s.nextEvent = .transportReset ∧ s.busy = false ∧ t = { s.popEvent with rxFifo := [], draws := s.draws + 1 }) ∨
      (s.eng = .recv ∧ (∃ b, s.rxFifo = b :: t.rxFifo) ∧ (Inv s → s.ctrl.op = .exchange → s.txIdx = 12))) ∧
    (s.busy = true → s.nextEvent = .transportReset → t = s.popEvent)

/-- The TX stream only grows at its end, by at most one byte a step, and only in SEND (10_state.md R41,
20_memory.md R58). -/
def Obligations.OnlySendPushesTheStream : Prop :=
  ∀ s t : State, step s = .next t →
    t.txStream = s.txStream ∨
      (s.eng = .send ∧ s.txIdx < 12 ∧ t.txStream = s.txStream ++ [s.txBuf s.txIdx])

/-- The invariant of the block holds at reset. -/
def Obligations.InvariantHoldsAtReset : Prop := Inv State.reset

/-- Every step keeps the invariant: `tx_idx`, RX_COUNT, STALL_COUNT and `sleep_left` in their bounds, TX_BUF the encoded
packet while it is sent, all twelve bytes pushed before EXCHANGE receives, at most one of DONE, TIMEOUT and CSUMERR, none
while busy, HALTED only with TOFATAL = 1, the collected bytes written, TX_CSUM the checksum field of TX_BUF, and the
RX FIFO within its depth. -/
def Obligations.StepKeepsInvariant : Prop := ∀ s t : State, Inv s → step s = .next t → Inv t

/-! ### The host bus -/

/-- What a 32-bit read of each register gives (20_memory.md R46; 10_state.md R21 to R36). CTRL reads OP in bits 2:1, VERIFY
in bit 3 and TOFATAL in bit 4, INT_EN its enables in bits 1 to 4; START and every reserved bit read 0. -/
def Obligations.RegisterReads : Prop :=
  ∀ s : State,
    (∃ c, s.memRead 0x000 4 = .data c ∧ c.getLsbD 0 = false ∧
      (c.getLsbD 1 = true ↔ s.ctrl.op = .recvData ∨ s.ctrl.op = .recvCmd) ∧
      (c.getLsbD 2 = true ↔ s.ctrl.op = .sendCmd ∨ s.ctrl.op = .recvCmd) ∧
      c.getLsbD 3 = s.ctrl.verify ∧ c.getLsbD 4 = s.ctrl.toFatal ∧ (∀ k, 5 ≤ k → c.getLsbD k = false)) ∧
    s.memRead 0x004 4 = .data s.statusWord ∧ s.memRead 0x008 4 = .data (s.cmd.setWidth 32) ∧
    s.memRead 0x00C 4 = .data s.param ∧ s.memRead 0x010 4 = .data s.lastParam ∧
    s.memRead 0x014 4 = .data (s.lastAck.setWidth 32) ∧ s.memRead 0x018 4 = .data (s.pollInterval.setWidth 32) ∧
    s.memRead 0x01C 4 = .data (s.maxPolls.setWidth 32) ∧ s.memRead 0x020 4 = .data (s.stallCount.setWidth 32) ∧
    s.memRead 0x024 4 = .data (s.rxCount.setWidth 32) ∧ s.memRead 0x028 4 = .data s.rxCsum ∧
    s.memRead 0x02C 4 = .data (s.txCsum.setWidth 32) ∧
    (∃ e, s.memRead 0x030 4 = .data e ∧ e.getLsbD 0 = false ∧ e.getLsbD 1 = s.intEn.doneEn ∧
      e.getLsbD 2 = s.intEn.timeoutEn ∧ e.getLsbD 3 = s.intEn.csumErrEn ∧ e.getLsbD 4 = s.intEn.busyErrEn ∧
      (∀ k, 5 ≤ k → e.getLsbD k = false)) ∧
    s.memRead 0x034 4 = .data (BitVec.ofNat 32 (min s.rxFifo.length 0xFFFF))

/-- The bits of STATUS (10_state.md R23, R24). -/
def Obligations.StatusBits : Prop :=
  ∀ (s : State) (k : Nat),
    s.statusWord.getLsbD 0 = (s.eng == .send || s.eng == .recv || s.eng == .sleep) ∧
    s.statusWord.getLsbD 1 = s.flags.done ∧ s.statusWord.getLsbD 2 = s.flags.timeout ∧
    s.statusWord.getLsbD 3 = s.flags.csumErr ∧ s.statusWord.getLsbD 4 = s.flags.busyErr ∧
    s.statusWord.getLsbD 5 = (s.eng == .halted) ∧ s.statusWord.getLsbD 6 = (s.lastAck == 0x0030#16) ∧
    (7 ≤ k → s.statusWord.getLsbD k = false) ∧
    ¬ (s.statusWord.getLsbD 0 = true ∧ s.statusWord.getLsbD 5 = true)

/-- Aligned reads of 1, 2 and 4 bytes of the buffer windows, assembled little-endian, with pads reading 0; a misaligned
one gets an error response (20_memory.md R49). -/
def Obligations.WindowReads : Prop :=
  ∀ (s : State) (j : Nat),
    let rx := fun i => if i < 504 then s.rxBuf i else 0#8
    let tx := fun i => if i < 12 then s.txBuf i else 0#8
    (j < 512 → s.memRead (0x200 + j) 1 = .data ((rx j).setWidth 32)) ∧
    (j < 512 → j % 2 = 0 → s.memRead (0x200 + j) 2 = .data ((le16 (rx j) (rx (j + 1))).setWidth 32)) ∧
    (j < 512 → j % 4 = 0 → s.memRead (0x200 + j) 4 = .data (le32 (rx j) (rx (j + 1)) (rx (j + 2)) (rx (j + 3)))) ∧
    (j < 16 → s.memRead (0x100 + j) 1 = .data ((tx j).setWidth 32)) ∧
    (j < 16 → j % 2 = 0 → s.memRead (0x100 + j) 2 = .data ((le16 (tx j) (tx (j + 1))).setWidth 32)) ∧
    (j < 16 → j % 4 = 0 → s.memRead (0x100 + j) 4 = .data (le32 (tx j) (tx (j + 1)) (tx (j + 2)) (tx (j + 3)))) ∧
    (j % 2 ≠ 0 → s.memRead (0x200 + j) 2 = .error ∧ s.memRead (0x100 + j) 2 = .error) ∧
    (j % 4 ≠ 0 → s.memRead (0x200 + j) 4 = .error ∧ s.memRead (0x100 + j) 4 = .error)

/-- An access gets the ERROR response and changes no block state when its offset is unmapped, its offset is not aligned to
its size, it is an 8- or 16-bit access to a register, or its size is not 1, 2 or 4 (20_memory.md R52). -/
def Obligations.ErrorResponses : Prop :=
  ∀ (s : State) (off n : Nat) (v : Word32), off < 0x1000 →
    ((0x038 ≤ off ∧ off < 0x100) ∨ (0x110 ≤ off ∧ off < 0x200) ∨ 0x400 ≤ off ∨ off % n ≠ 0 ∨
      (off < 0x038 ∧ (n = 1 ∨ n = 2)) ∨ (n ≠ 1 ∧ n ≠ 2 ∧ n ≠ 4)) →
    s.memRead off n = .error ∧ s.memWrite off n v = { s with host := { s.host with bus := .error } }

/-- The block answers accesses in the 4 KiB window at FRAMER_BASE, by their offset, and no others (20_memory.md R44). -/
def Obligations.BlockAnswersItsWindow : Prop :=
  ∀ (s : State) (addr n : Nat) (v : Word32),
    (∀ off, off < 0x1000 → addr = s.platform.framerBase + off →
      s.busRead addr n = { s with host := { s.host with bus := s.memRead off n } } ∧
      s.busWrite addr n v = s.memWrite off n v) ∧
    (addr < s.platform.framerBase ∨ s.platform.framerBase + 0x1000 ≤ addr →
      s.busRead addr n = { s with host := { s.host with bus := .notSelected } } ∧
      s.busWrite addr n v = { s with host := { s.host with bus := .notSelected } })

/-- No host read has a side effect, and reading again gives the same answer (20_memory.md R53). -/
def Obligations.ReadsHaveNoSideEffect : Prop :=
  ∀ (s : State) (addr n : Nat),
    (∃ r, s.busRead addr n = { s with host := { s.host with bus := r } }) ∧
    (s.busRead addr n).busRead addr n = s.busRead addr n

/-- A write to STATUS clears each W1C bit written with 1 and leaves every bit written with 0, locked or not
(20_memory.md R54). -/
def Obligations.StatusWriteClearsOnes : Prop :=
  ∀ (s : State) (v : Word32),
    s.wr .status v =
      { s with flags := { done := if v.getLsbD 1 then false else s.flags.done,
                          timeout := if v.getLsbD 2 then false else s.flags.timeout,
                          csumErr := if v.getLsbD 3 then false else s.flags.csumErr,
                          busyErr := if v.getLsbD 4 then false else s.flags.busyErr },
               host := { s.host with bus := .okay } }

/-- A write to a read-only register, to a read-only field or a reserved bit, or to a buffer window is ignored with OKAY
and does not set BUSYERR (20_memory.md R55): such a write changes nothing, and the bits of a writable register outside
its RW and W1C fields make no difference. -/
def Obligations.ReadOnlyWritesAreIgnored : Prop :=
  ∀ (s : State) (v : Word32),
    (∀ r : Reg, r = .lastParam ∨ r = .lastAck ∨ r = .stallCount ∨ r = .rxCount ∨ r = .rxCsum ∨ r = .txCsum ∨
      r = .rxAvail → s.wr r v = { s with host := { s.host with bus := .okay } }) ∧
    (∀ off n, (n = 1 ∨ n = 2 ∨ n = 4) → off % n = 0 →
      (0x100 ≤ off ∧ off < 0x110) ∨ (0x200 ≤ off ∧ off < 0x400) →
      s.memWrite off n v = { s with host := { s.host with bus := .okay } }) ∧
    s.wr .ctrl v = s.wr .ctrl (v &&& 0x1F#32) ∧ s.wr .status v = s.wr .status (v &&& 0x1E#32) ∧
    s.wr .cmd v = s.wr .cmd (v &&& 0xFFFF#32) ∧ s.wr .pollInterval v = s.wr .pollInterval (v &&& 0xFFFF#32) ∧
    s.wr .maxPolls v = s.wr .maxPolls (v &&& 0xFFFF#32) ∧ s.wr .intEn v = s.wr .intEn (v &&& 0x1E#32)

/-- While the block is locked a write to CTRL, CMD, PARAM, POLL_INTERVAL or MAX_POLLS is refused as a whole and sets
BUSYERR; writes to STATUS and INT_EN are not refused (20_memory.md R56). -/
def Obligations.LockRefusesConfigurationWrites : Prop :=
  ∀ (s : State) (v : Word32), s.eng ≠ .idle →
    s.wr .ctrl v = refusedWrite s ∧ s.wr .cmd v = refusedWrite s ∧ s.wr .param v = refusedWrite s ∧
    s.wr .pollInterval v = refusedWrite s ∧ s.wr .maxPolls v = refusedWrite s ∧
    (s.wr .status v).flags = clearFlags v s.flags ∧ (s.wr .intEn v).intEn = intEnOf v

/-- Writes to CMD, PARAM, POLL_INTERVAL, MAX_POLLS of an idle block and to INT_EN of any: the field is written, the
reserved bits are dropped, nothing else changes (10_state.md R25, R26, R29, R30, R35). -/
def Obligations.ConfigurationWrites : Prop :=
  ∀ (s : State) (v : Word32),
    (s.eng = .idle →
      s.wr .cmd v = { s with cmd := v.setWidth 16, host := { s.host with bus := .okay } } ∧
      s.wr .param v = { s with param := v, host := { s.host with bus := .okay } } ∧
      s.wr .pollInterval v = { s with pollInterval := v.setWidth 16, host := { s.host with bus := .okay } } ∧
      s.wr .maxPolls v = { s with maxPolls := v.setWidth 16, host := { s.host with bus := .okay } }) ∧
    s.wr .intEn v =
      { s with intEn := ⟨v.getLsbD 1, v.getLsbD 2, v.getLsbD 3, v.getLsbD 4⟩, host := { s.host with bus := .okay } }

/-- The interrupt output is the OR of each STATUS bit with its enable; clearing the four bits, or all the enables,
deasserts it, and so does reset (60_exceptions.md R161). -/
def Obligations.InterruptOutput : Prop :=
  (∀ s : State, s.irq = true ↔
    (s.flags.done = true ∧ s.intEn.doneEn = true) ∨ (s.flags.timeout = true ∧ s.intEn.timeoutEn = true) ∨
    (s.flags.csumErr = true ∧ s.intEn.csumErrEn = true) ∨ (s.flags.busyErr = true ∧ s.intEn.busyErrEn = true)) ∧
  (∀ s : State, (s.wr .status 0x1E#32).irq = false ∧ (s.wr .intEn 0#32).irq = false ∧ s.assertReset.irq = false)

/-! ### Reset -/

/-- The reset values (10_state.md R43): those the spec gives; every buffer byte is unwritten. -/
def Obligations.ResetValues : Prop :=
  State.reset.eng = .idle ∧ State.reset.txIdx = 0 ∧ State.reset.sleepLeft = 0#16 ∧
  State.reset.memRead 0x000 4 = .data 0#32 ∧ State.reset.statusWord = 0#32 ∧ State.reset.cmd = 0#16 ∧
  State.reset.param = 0#32 ∧ State.reset.lastParam = 0#32 ∧ State.reset.lastAck = 0#16 ∧
  State.reset.pollInterval = 0x000A#16 ∧ State.reset.maxPolls = 0x012C#16 ∧ State.reset.stallCount = 0#16 ∧
  State.reset.rxCount = 0#10 ∧ State.reset.rxCsum = 0#32 ∧ State.reset.txCsum = 0#16 ∧
  intEnWord State.reset.intEn = 0#32 ∧ (∀ a, Memory.read State.reset.mem a = none) ∧ State.reset.irq = false

/-- The reset input, asserted in any state, puts every piece of block state to its reset value in one step
(70_reset_and_hazards.md R170) and touches neither the Transport nor the Module (R171). -/
def Obligations.ResetFromAnyState : Prop :=
  ∀ (s : State) (rest : List Event), s.inputs = .reset :: rest →
    step s = .next { State.reset with
      rxFifo := s.rxFifo, txStream := s.txStream, moduleWaiting := s.moduleWaiting, platform := s.platform,
      host := s.host, driver := s.driver, inputs := rest, sched := s.sched, draws := s.draws + 1 }

/-! ### The host's software -/

/-- The result of a call from STATUS: DONE, then TIMEOUT, then CSUMERR, then BUSYERR (43_host_sequences.md R140). -/
def Obligations.CallResultFromStatus : Prop :=
  ∀ (s : State) (ack : Word16) (p : Word32),
    (s.flags.done = true → callResult s.statusWord ack p = some (.reply ack p)) ∧
    (s.flags.done = false → s.flags.timeout = true → callResult s.statusWord ack p = some .timeout) ∧
    (s.flags.done = false → s.flags.timeout = false → s.flags.csumErr = true →
      callResult s.statusWord ack p = some .checksumMismatch) ∧
    (s.flags.done = false → s.flags.timeout = false → s.flags.csumErr = false → s.flags.busyErr = true →
      callResult s.statusWord ack p = some .rejected)

/-- The driver's call on an idle block: three turns write CMD, PARAM and CTRL, and the EXCHANGE is launched
(43_host_sequences.md R140, 30_encoding.md R90). -/
def Obligations.DriverCallLaunchesExchange : Prop :=
  ∀ (s : State) (op : Word16) (p : Word32) (why : Purpose), s.eng = .idle →
    s.driver.phase = .writeCmd op p why →
    s.driverTurn.driverTurn.driverTurn =
      launchedSend .exchange s.driver.policy op p { s with driver := { s.driver with phase := .wait why } }

/-- An enroll step's NACK is DuplicateFinger for a code of at most 199 and EnrollRetryable otherwise
(43_host_sequences.md R146). -/
def Obligations.EnrollNackClassification : Prop :=
  ∀ (quality : Word32) (k : Nat) (ack : Word16) (code : Word32), ack ≠ 0x0030#16 →
    (code.toNat ≤ 199 → afterCall quality (.enrollStep k) (.reply ack code) = .finish .duplicateFinger) ∧
    (199 < code.toNat → afterCall quality (.enrollStep k) (.reply ack code) = .finish .enrollRetryable)

/-- The capture loop (43_host_sequences.md R143), whatever follows a capture: a module that always NACKs gets exactly 500
CAPTURE_FINGER calls and then CaptureTimeout; an ACK at attempt k ends the loop after k calls with what follows; any
result but a reply ends it at once with that result. `capture()`, identification and each enroll step all start this
loop (R142, R148). -/
def Obligations.CaptureLoopCeiling : Prop :=
  (∀ (quality : Word32) (after : AfterCapture) (nacks : List (Word16 × Word32)), (∀ r, r ∈ nacks → r.1 ≠ 0x0030#16) →
    let results := nacks.map (fun r => CallResult.reply r.1 r.2)
    let run := followCalls quality (.call 0x0060#16 quality (.capture 1 after))
    (nacks.length < 500 → run results = .call 0x0060#16 quality (.capture (nacks.length + 1) after)) ∧
    (nacks.length = 500 → run results = .finish .captureTimeout) ∧
    (nacks.length < 500 → ∀ p, run (results ++ [.reply 0x0030#16 p]) = afterCaptured after) ∧
    (nacks.length < 500 → run (results ++ [.timeout]) = .finish .timeout ∧
      run (results ++ [.checksumMismatch]) = .finish .checksumMismatch ∧
      run (results ++ [.rejected]) = .finish .rejected)) ∧
  afterCaptured .stop = .finish .captured ∧ afterCaptured .identify = .call 0x0051#16 0#32 .identify ∧
  (∀ (quality p : Word32),
    taskStart quality .capture = .call 0x0060#16 quality (.capture 1 .stop) ∧
    taskStart quality .identify = .call 0x0060#16 quality (.capture 1 .identify) ∧
    afterCall quality .enrollStart (.reply 0x0030#16 p) = .call 0x0060#16 quality (.capture 1 (.enrollStep 1)) ∧
    (∀ k, k < 3 → afterCall quality (.enrollStep k) (.reply 0x0030#16 p)
      = .call 0x0060#16 quality (.capture 1 (.enrollStep (k + 1)))))

/-- Enrollment (43_host_sequences.md R142): ENROLL_START, then three times a capture and the enroll step k, and then the
template; an ENROLL_START NACK is returned with its reason (R147); in every call of a sequence, a result that is no
reply ends it with that result. -/
def Obligations.EnrollmentSequence : Prop :=
  ∀ (quality slot p : Word32),
    let ack := CallResult.reply 0x0030#16 p
    let start := taskStart quality (.enroll slot)
    start = .call 0x0022#16 slot .enrollStart ∧
    followCalls quality start [ack] = .call 0x0060#16 quality (.capture 1 (.enrollStep 1)) ∧
    followCalls quality start [ack, ack] = .call 0x0023#16 0#32 (.enrollStep 1) ∧
    followCalls quality start [ack, ack, ack] = .call 0x0060#16 quality (.capture 1 (.enrollStep 2)) ∧
    followCalls quality start [ack, ack, ack, ack] = .call 0x0024#16 0#32 (.enrollStep 2) ∧
    followCalls quality start [ack, ack, ack, ack, ack] = .call 0x0060#16 quality (.capture 1 (.enrollStep 3)) ∧
    followCalls quality start [ack, ack, ack, ack, ack, ack] = .call 0x0025#16 0#32 (.enrollStep 3) ∧
    followCalls quality start [ack, ack, ack, ack, ack, ack, ack] = .retrieve ∧
    (∀ a : Word16, a ≠ 0x0030#16 → followCalls quality start [.reply a p] = .finish (.nack p)) ∧
    (∀ why : Purpose, afterCall quality why .timeout = .finish .timeout ∧
      afterCall quality why .checksumMismatch = .finish .checksumMismatch ∧
      afterCall quality why .rejected = .finish .rejected)

/-- The retrieval of the template, which ends an enrollment (43_host_sequences.md R144, R150): a RECV_DATA is launched, no
command; the driver polls STATUS until BUSY is 0, reads STATUS and RX_COUNT; TIMEOUT and CSUMERR end it; otherwise the
498 bytes of RX_BUF[4..502) are read, one a turn (log 17), and handed to the sink, whose answer gives Enrolled or
SinkFailure with no further exchange. -/
def Obligations.TemplateRetrieval : Prop :=
  phaseOf .retrieve = .dataCtrl ∧
  ∀ (s : State) (st : Word32),
    let inPhase := fun p => { s with driver := { s.driver with phase := p } }
    let turned := fun r p => { s with host := { s.host with bus := r }, driver := { s.driver with phase := p } }
    (s.eng = .idle → (inPhase .dataCtrl).driverTurn = launchedRecv .recvData s.driver.policy (inPhase .dataWait)) ∧
    (s.busy = true → (inPhase .dataWait).driverTurn = turned (.data s.statusWord) .dataWait) ∧
    (s.busy = false → (inPhase .dataWait).driverTurn = turned (.data s.statusWord) .dataStatus) ∧
    (inPhase .dataStatus).driverTurn = turned (.data s.statusWord) (.dataCount s.statusWord) ∧
    (inPhase (.dataCount st)).driverTurn = turned (.data (s.rxCount.setWidth 32))
      (if st.getLsbD 2 then .finished .timeout
        else if st.getLsbD 3 then .finished .checksumMismatch else .readTemplate []) ∧
    (∀ got : List Byte, got.length < 498 → (inPhase (.readTemplate got)).driverTurn =
      turned (s.memRead (0x204 + got.length) 1)
        (if got.length + 1 < 498 then .readTemplate (got ++ [s.rxBuf (4 + got.length)])
          else .sink (got ++ [s.rxBuf (4 + got.length)]))) ∧
    Nat.repeat State.driverTurn 498 (inPhase (.readTemplate [])) =
      turned (s.memRead (0x204 + 497) 1) (.sink (s.rxBytes 4 498)) ∧
    (∀ (template : List Byte) (ok : Bool), (inPhase (.sink template)).sinkAnswer ok =
      inPhase (.finished (if ok then .enrolled else .sinkFailure)))

/-- Identify and finger presence (43_host_sequences.md R148, R149). -/
def Obligations.IdentifyAndPresence : Prop :=
  ∀ (quality p : Word32) (a : Word16),
    afterCall quality (.capture 1 .identify) (.reply 0x0030#16 p) = .call 0x0051#16 0#32 .identify ∧
    afterCall quality .identify (.reply 0x0030#16 p) = .finish (.matched p) ∧
    (a ≠ 0x0030#16 → afterCall quality .identify (.reply a p) = .finish .noMatch) ∧
    (p = 0x1012#32 → afterCall quality .presence (.reply a p) = .finish (.pressed false)) ∧
    (p ≠ 0x1012#32 → afterCall quality .presence (.reply a p) = .finish (.pressed true))

/-- What a line of a host program does (30_encoding.md R89): WR and W1C write; RD, RDB and RDW read into a variable and
change nothing of the block; WAIT reads STATUS and goes on once BUSY is 0; labels, GOTO, IF, LET and DELAY make no
access. LET computes over unbounded integers; a comparison is 1 where it holds and 0 otherwise, and IF jumps where its
condition is not 0 (log 16). -/
def Obligations.HostLinesMakeTheirAccesses : Prop :=
  (∀ (s : State) (r : Reg) (v : Word32) (i x l : Nat) (e : HostExpr),
    let h := s.host
    let read := fun (w : Word32) => { s with
      host := { h with bus := .data w, vars := setVar h.vars x (Int.ofNat w.toNat), pc := h.pc + 1 } }
    let unread := { s with host := { h with bus := .error, pc := h.pc + 1 } }
    let toLine := fun n => { s with host := { h with pc := n } }
    s.hostLine (.wr r v) = (s.memWrite (regOffset r) 4 v).hostNext ∧
    s.hostLine (.w1c v) = (s.memWrite 0x004 4 v).hostNext ∧
    (∀ w, s.memRead (regOffset r) 4 = .data w → s.hostLine (.rd r x) = read w) ∧
    (∀ w, s.memRead (0x200 + i) 1 = .data w → s.hostLine (.rdb i x) = read w) ∧
    (∀ w, s.memRead (0x200 + i) 4 = .data w → s.hostLine (.rdw i x) = read w) ∧
    (s.memRead (0x200 + i) 1 = .error → s.hostLine (.rdb i x) = unread) ∧
    (s.memRead (0x200 + i) 4 = .error → s.hostLine (.rdw i x) = unread) ∧
    (s.busy = true → s.hostLine .waitIdle = { s with host := { h with bus := s.memRead 0x004 4 } }) ∧
    (s.busy = false →
      s.hostLine .waitIdle = { s with host := { h with bus := s.memRead 0x004 4, pc := h.pc + 1 } }) ∧
    s.hostNext = toLine (h.pc + 1) ∧ s.hostLine (.label l) = toLine (h.pc + 1) ∧
    s.hostLine (.delay l) = toLine (h.pc + 1) ∧
    s.hostLine (.goto l) = toLine (h.program.findIdx (fun line => line == .label l)) ∧
    (evalExpr h.vars e ≠ 0 →
      s.hostLine (.ifGoto e l) = toLine (h.program.findIdx (fun line => line == .label l))) ∧
    (evalExpr h.vars e = 0 → s.hostLine (.ifGoto e l) = toLine (h.pc + 1)) ∧
    s.hostLine (.letVar x e) =
      { s with host := { h with vars := setVar h.vars x (evalExpr h.vars e), pc := h.pc + 1 } }) ∧
  (∀ (vs : List (Nat × Int)) (x y : Nat) (v : Int), varValue (setVar vs x v) x = v ∧
    (y ≠ x → varValue (setVar vs x v) y = varValue vs y)) ∧
  (∀ (vs : List (Nat × Int)) (a b : HostExpr) (x : Nat) (n : Int) (j k : Nat),
    let p := evalExpr vs a
    let q := evalExpr vs b
    evalExpr vs (.lit n) = n ∧ evalExpr vs (.var x) = varValue vs x ∧ evalExpr vs (.add a b) = p + q ∧
    evalExpr vs (.sub a b) = p - q ∧
    evalExpr vs (.band (.lit (Int.ofNat j)) (.lit (Int.ofNat k))) = Int.ofNat (j &&& k) ∧
    evalExpr vs (.bor (.lit (Int.ofNat j)) (.lit (Int.ofNat k))) = Int.ofNat (j ||| k) ∧
    evalExpr vs (.eq a b) = (if p = q then 1 else 0) ∧ evalExpr vs (.ne a b) = (if p = q then 0 else 1) ∧
    evalExpr vs (.lt a b) = (if p < q then 1 else 0) ∧ evalExpr vs (.ge a b) = (if p < q then 0 else 1))
end

