-- ==== Sys2Proof/Laws/State.lean ====
section
/-!
SUPPORT. What each named update of State does to each field.
-/
namespace Sys2Proof.Machine

/-! ### answer -/

@[simp] theorem answer_eng (s : State) (r : BusResponse) : (s.answer r).eng = s.eng := rfl
@[simp] theorem answer_txIdx (s : State) (r : BusResponse) : (s.answer r).txIdx = s.txIdx := rfl
@[simp] theorem answer_sleepLeft (s : State) (r : BusResponse) : (s.answer r).sleepLeft = s.sleepLeft := rfl
@[simp] theorem answer_ctrl (s : State) (r : BusResponse) : (s.answer r).ctrl = s.ctrl := rfl
@[simp] theorem answer_flags (s : State) (r : BusResponse) : (s.answer r).flags = s.flags := rfl
@[simp] theorem answer_cmd (s : State) (r : BusResponse) : (s.answer r).cmd = s.cmd := rfl
@[simp] theorem answer_param (s : State) (r : BusResponse) : (s.answer r).param = s.param := rfl
@[simp] theorem answer_lastParam (s : State) (r : BusResponse) : (s.answer r).lastParam = s.lastParam := rfl
@[simp] theorem answer_lastAck (s : State) (r : BusResponse) : (s.answer r).lastAck = s.lastAck := rfl
@[simp] theorem answer_pollInterval (s : State) (r : BusResponse) : (s.answer r).pollInterval = s.pollInterval := rfl
@[simp] theorem answer_maxPolls (s : State) (r : BusResponse) : (s.answer r).maxPolls = s.maxPolls := rfl
@[simp] theorem answer_stallCount (s : State) (r : BusResponse) : (s.answer r).stallCount = s.stallCount := rfl
@[simp] theorem answer_rxCount (s : State) (r : BusResponse) : (s.answer r).rxCount = s.rxCount := rfl
@[simp] theorem answer_rxCsum (s : State) (r : BusResponse) : (s.answer r).rxCsum = s.rxCsum := rfl
@[simp] theorem answer_txCsum (s : State) (r : BusResponse) : (s.answer r).txCsum = s.txCsum := rfl
@[simp] theorem answer_intEn (s : State) (r : BusResponse) : (s.answer r).intEn = s.intEn := rfl
@[simp] theorem answer_mem (s : State) (r : BusResponse) : (s.answer r).mem = s.mem := rfl
@[simp] theorem answer_rxFifo (s : State) (r : BusResponse) : (s.answer r).rxFifo = s.rxFifo := rfl
@[simp] theorem answer_txStream (s : State) (r : BusResponse) : (s.answer r).txStream = s.txStream := rfl
@[simp] theorem answer_moduleWaiting (s : State) (r : BusResponse) : (s.answer r).moduleWaiting = s.moduleWaiting := rfl
@[simp] theorem answer_platform (s : State) (r : BusResponse) : (s.answer r).platform = s.platform := rfl
@[simp] theorem answer_host (s : State) (r : BusResponse) : (s.answer r).host = { s.host with bus := r } := rfl
@[simp] theorem answer_driver (s : State) (r : BusResponse) : (s.answer r).driver = s.driver := rfl
@[simp] theorem answer_inputs (s : State) (r : BusResponse) : (s.answer r).inputs = s.inputs := rfl
@[simp] theorem answer_sched (s : State) (r : BusResponse) : (s.answer r).sched = s.sched := rfl
@[simp] theorem answer_draws (s : State) (r : BusResponse) : (s.answer r).draws = s.draws := rfl

/-! ### nextDraw -/

@[simp] theorem nextDraw_eng (s : State) : (s.nextDraw).eng = s.eng := rfl
@[simp] theorem nextDraw_txIdx (s : State) : (s.nextDraw).txIdx = s.txIdx := rfl
@[simp] theorem nextDraw_sleepLeft (s : State) : (s.nextDraw).sleepLeft = s.sleepLeft := rfl
@[simp] theorem nextDraw_ctrl (s : State) : (s.nextDraw).ctrl = s.ctrl := rfl
@[simp] theorem nextDraw_flags (s : State) : (s.nextDraw).flags = s.flags := rfl
@[simp] theorem nextDraw_cmd (s : State) : (s.nextDraw).cmd = s.cmd := rfl
@[simp] theorem nextDraw_param (s : State) : (s.nextDraw).param = s.param := rfl
@[simp] theorem nextDraw_lastParam (s : State) : (s.nextDraw).lastParam = s.lastParam := rfl
@[simp] theorem nextDraw_lastAck (s : State) : (s.nextDraw).lastAck = s.lastAck := rfl
@[simp] theorem nextDraw_pollInterval (s : State) : (s.nextDraw).pollInterval = s.pollInterval := rfl
@[simp] theorem nextDraw_maxPolls (s : State) : (s.nextDraw).maxPolls = s.maxPolls := rfl
@[simp] theorem nextDraw_stallCount (s : State) : (s.nextDraw).stallCount = s.stallCount := rfl
@[simp] theorem nextDraw_rxCount (s : State) : (s.nextDraw).rxCount = s.rxCount := rfl
@[simp] theorem nextDraw_rxCsum (s : State) : (s.nextDraw).rxCsum = s.rxCsum := rfl
@[simp] theorem nextDraw_txCsum (s : State) : (s.nextDraw).txCsum = s.txCsum := rfl
@[simp] theorem nextDraw_intEn (s : State) : (s.nextDraw).intEn = s.intEn := rfl
@[simp] theorem nextDraw_mem (s : State) : (s.nextDraw).mem = s.mem := rfl
@[simp] theorem nextDraw_rxFifo (s : State) : (s.nextDraw).rxFifo = s.rxFifo := rfl
@[simp] theorem nextDraw_txStream (s : State) : (s.nextDraw).txStream = s.txStream := rfl
@[simp] theorem nextDraw_moduleWaiting (s : State) : (s.nextDraw).moduleWaiting = s.moduleWaiting := rfl
@[simp] theorem nextDraw_platform (s : State) : (s.nextDraw).platform = s.platform := rfl
@[simp] theorem nextDraw_host (s : State) : (s.nextDraw).host = s.host := rfl
@[simp] theorem nextDraw_driver (s : State) : (s.nextDraw).driver = s.driver := rfl
@[simp] theorem nextDraw_inputs (s : State) : (s.nextDraw).inputs = s.inputs := rfl
@[simp] theorem nextDraw_sched (s : State) : (s.nextDraw).sched = s.sched := rfl
@[simp] theorem nextDraw_draws (s : State) : (s.nextDraw).draws = s.draws + 1 := rfl

/-! ### txPush -/

@[simp] theorem txPush_eng (s : State) (b : Byte) : (s.txPush b).eng = s.eng := rfl
@[simp] theorem txPush_txIdx (s : State) (b : Byte) : (s.txPush b).txIdx = s.txIdx := rfl
@[simp] theorem txPush_sleepLeft (s : State) (b : Byte) : (s.txPush b).sleepLeft = s.sleepLeft := rfl
@[simp] theorem txPush_ctrl (s : State) (b : Byte) : (s.txPush b).ctrl = s.ctrl := rfl
@[simp] theorem txPush_flags (s : State) (b : Byte) : (s.txPush b).flags = s.flags := rfl
@[simp] theorem txPush_cmd (s : State) (b : Byte) : (s.txPush b).cmd = s.cmd := rfl
@[simp] theorem txPush_param (s : State) (b : Byte) : (s.txPush b).param = s.param := rfl
@[simp] theorem txPush_lastParam (s : State) (b : Byte) : (s.txPush b).lastParam = s.lastParam := rfl
@[simp] theorem txPush_lastAck (s : State) (b : Byte) : (s.txPush b).lastAck = s.lastAck := rfl
@[simp] theorem txPush_pollInterval (s : State) (b : Byte) : (s.txPush b).pollInterval = s.pollInterval := rfl
@[simp] theorem txPush_maxPolls (s : State) (b : Byte) : (s.txPush b).maxPolls = s.maxPolls := rfl
@[simp] theorem txPush_stallCount (s : State) (b : Byte) : (s.txPush b).stallCount = s.stallCount := rfl
@[simp] theorem txPush_rxCount (s : State) (b : Byte) : (s.txPush b).rxCount = s.rxCount := rfl
@[simp] theorem txPush_rxCsum (s : State) (b : Byte) : (s.txPush b).rxCsum = s.rxCsum := rfl
@[simp] theorem txPush_txCsum (s : State) (b : Byte) : (s.txPush b).txCsum = s.txCsum := rfl
@[simp] theorem txPush_intEn (s : State) (b : Byte) : (s.txPush b).intEn = s.intEn := rfl
@[simp] theorem txPush_mem (s : State) (b : Byte) : (s.txPush b).mem = s.mem := rfl
@[simp] theorem txPush_rxFifo (s : State) (b : Byte) : (s.txPush b).rxFifo = s.rxFifo := rfl
@[simp] theorem txPush_txStream (s : State) (b : Byte) : (s.txPush b).txStream = s.txStream ++ [b] := rfl
@[simp] theorem txPush_moduleWaiting (s : State) (b : Byte) : (s.txPush b).moduleWaiting = s.moduleWaiting := rfl
@[simp] theorem txPush_platform (s : State) (b : Byte) : (s.txPush b).platform = s.platform := rfl
@[simp] theorem txPush_host (s : State) (b : Byte) : (s.txPush b).host = s.host := rfl
@[simp] theorem txPush_driver (s : State) (b : Byte) : (s.txPush b).driver = s.driver := rfl
@[simp] theorem txPush_inputs (s : State) (b : Byte) : (s.txPush b).inputs = s.inputs := rfl
@[simp] theorem txPush_sched (s : State) (b : Byte) : (s.txPush b).sched = s.sched := rfl
@[simp] theorem txPush_draws (s : State) (b : Byte) : (s.txPush b).draws = s.draws := rfl

/-! ### fifoAppend -/

@[simp] theorem fifoAppend_eng (s : State) (b : Byte) : (s.fifoAppend b).eng = s.eng := rfl
@[simp] theorem fifoAppend_txIdx (s : State) (b : Byte) : (s.fifoAppend b).txIdx = s.txIdx := rfl
@[simp] theorem fifoAppend_sleepLeft (s : State) (b : Byte) : (s.fifoAppend b).sleepLeft = s.sleepLeft := rfl
@[simp] theorem fifoAppend_ctrl (s : State) (b : Byte) : (s.fifoAppend b).ctrl = s.ctrl := rfl
@[simp] theorem fifoAppend_flags (s : State) (b : Byte) : (s.fifoAppend b).flags = s.flags := rfl
@[simp] theorem fifoAppend_cmd (s : State) (b : Byte) : (s.fifoAppend b).cmd = s.cmd := rfl
@[simp] theorem fifoAppend_param (s : State) (b : Byte) : (s.fifoAppend b).param = s.param := rfl
@[simp] theorem fifoAppend_lastParam (s : State) (b : Byte) : (s.fifoAppend b).lastParam = s.lastParam := rfl
@[simp] theorem fifoAppend_lastAck (s : State) (b : Byte) : (s.fifoAppend b).lastAck = s.lastAck := rfl
@[simp] theorem fifoAppend_pollInterval (s : State) (b : Byte) : (s.fifoAppend b).pollInterval = s.pollInterval := rfl
@[simp] theorem fifoAppend_maxPolls (s : State) (b : Byte) : (s.fifoAppend b).maxPolls = s.maxPolls := rfl
@[simp] theorem fifoAppend_stallCount (s : State) (b : Byte) : (s.fifoAppend b).stallCount = s.stallCount := rfl
@[simp] theorem fifoAppend_rxCount (s : State) (b : Byte) : (s.fifoAppend b).rxCount = s.rxCount := rfl
@[simp] theorem fifoAppend_rxCsum (s : State) (b : Byte) : (s.fifoAppend b).rxCsum = s.rxCsum := rfl
@[simp] theorem fifoAppend_txCsum (s : State) (b : Byte) : (s.fifoAppend b).txCsum = s.txCsum := rfl
@[simp] theorem fifoAppend_intEn (s : State) (b : Byte) : (s.fifoAppend b).intEn = s.intEn := rfl
@[simp] theorem fifoAppend_mem (s : State) (b : Byte) : (s.fifoAppend b).mem = s.mem := rfl
@[simp] theorem fifoAppend_rxFifo (s : State) (b : Byte) : (s.fifoAppend b).rxFifo = s.rxFifo ++ [b] := rfl
@[simp] theorem fifoAppend_txStream (s : State) (b : Byte) : (s.fifoAppend b).txStream = s.txStream := rfl
@[simp] theorem fifoAppend_moduleWaiting (s : State) (b : Byte) : (s.fifoAppend b).moduleWaiting = s.moduleWaiting := rfl
@[simp] theorem fifoAppend_platform (s : State) (b : Byte) : (s.fifoAppend b).platform = s.platform := rfl
@[simp] theorem fifoAppend_host (s : State) (b : Byte) : (s.fifoAppend b).host = s.host := rfl
@[simp] theorem fifoAppend_driver (s : State) (b : Byte) : (s.fifoAppend b).driver = s.driver := rfl
@[simp] theorem fifoAppend_inputs (s : State) (b : Byte) : (s.fifoAppend b).inputs = s.inputs := rfl
@[simp] theorem fifoAppend_sched (s : State) (b : Byte) : (s.fifoAppend b).sched = s.sched := rfl
@[simp] theorem fifoAppend_draws (s : State) (b : Byte) : (s.fifoAppend b).draws = s.draws := rfl

/-! ### transportReset -/

@[simp] theorem transportReset_eng (s : State) : (s.transportReset).eng = s.eng := by
  unfold State.transportReset; split <;> rfl
@[simp] theorem transportReset_txIdx (s : State) : (s.transportReset).txIdx = s.txIdx := by
  unfold State.transportReset; split <;> rfl
@[simp] theorem transportReset_sleepLeft (s : State) : (s.transportReset).sleepLeft = s.sleepLeft := by
  unfold State.transportReset; split <;> rfl
@[simp] theorem transportReset_ctrl (s : State) : (s.transportReset).ctrl = s.ctrl := by
  unfold State.transportReset; split <;> rfl
@[simp] theorem transportReset_flags (s : State) : (s.transportReset).flags = s.flags := by
  unfold State.transportReset; split <;> rfl
@[simp] theorem transportReset_cmd (s : State) : (s.transportReset).cmd = s.cmd := by
  unfold State.transportReset; split <;> rfl
@[simp] theorem transportReset_param (s : State) : (s.transportReset).param = s.param := by
  unfold State.transportReset; split <;> rfl
@[simp] theorem transportReset_lastParam (s : State) : (s.transportReset).lastParam = s.lastParam := by
  unfold State.transportReset; split <;> rfl
@[simp] theorem transportReset_lastAck (s : State) : (s.transportReset).lastAck = s.lastAck := by
  unfold State.transportReset; split <;> rfl
@[simp] theorem transportReset_pollInterval (s : State) : (s.transportReset).pollInterval = s.pollInterval := by
  unfold State.transportReset; split <;> rfl
@[simp] theorem transportReset_maxPolls (s : State) : (s.transportReset).maxPolls = s.maxPolls := by
  unfold State.transportReset; split <;> rfl
@[simp] theorem transportReset_stallCount (s : State) : (s.transportReset).stallCount = s.stallCount := by
  unfold State.transportReset; split <;> rfl
@[simp] theorem transportReset_rxCount (s : State) : (s.transportReset).rxCount = s.rxCount := by
  unfold State.transportReset; split <;> rfl
@[simp] theorem transportReset_rxCsum (s : State) : (s.transportReset).rxCsum = s.rxCsum := by
  unfold State.transportReset; split <;> rfl
@[simp] theorem transportReset_txCsum (s : State) : (s.transportReset).txCsum = s.txCsum := by
  unfold State.transportReset; split <;> rfl
@[simp] theorem transportReset_intEn (s : State) : (s.transportReset).intEn = s.intEn := by
  unfold State.transportReset; split <;> rfl
@[simp] theorem transportReset_mem (s : State) : (s.transportReset).mem = s.mem := by
  unfold State.transportReset; split <;> rfl
@[simp] theorem transportReset_txStream (s : State) : (s.transportReset).txStream = s.txStream := by
  unfold State.transportReset; split <;> rfl
@[simp] theorem transportReset_moduleWaiting (s : State) : (s.transportReset).moduleWaiting = s.moduleWaiting := by
  unfold State.transportReset; split <;> rfl
@[simp] theorem transportReset_platform (s : State) : (s.transportReset).platform = s.platform := by
  unfold State.transportReset; split <;> rfl
@[simp] theorem transportReset_host (s : State) : (s.transportReset).host = s.host := by
  unfold State.transportReset; split <;> rfl
@[simp] theorem transportReset_driver (s : State) : (s.transportReset).driver = s.driver := by
  unfold State.transportReset; split <;> rfl
@[simp] theorem transportReset_inputs (s : State) : (s.transportReset).inputs = s.inputs := by
  unfold State.transportReset; split <;> rfl
@[simp] theorem transportReset_sched (s : State) : (s.transportReset).sched = s.sched := by
  unfold State.transportReset; split <;> rfl

/-! ### offer -/

@[simp] theorem offer_eng (s : State) (e : Event) : (s.offer e).eng = s.eng := rfl
@[simp] theorem offer_txIdx (s : State) (e : Event) : (s.offer e).txIdx = s.txIdx := rfl
@[simp] theorem offer_sleepLeft (s : State) (e : Event) : (s.offer e).sleepLeft = s.sleepLeft := rfl
@[simp] theorem offer_ctrl (s : State) (e : Event) : (s.offer e).ctrl = s.ctrl := rfl
@[simp] theorem offer_flags (s : State) (e : Event) : (s.offer e).flags = s.flags := rfl
@[simp] theorem offer_cmd (s : State) (e : Event) : (s.offer e).cmd = s.cmd := rfl
@[simp] theorem offer_param (s : State) (e : Event) : (s.offer e).param = s.param := rfl
@[simp] theorem offer_lastParam (s : State) (e : Event) : (s.offer e).lastParam = s.lastParam := rfl
@[simp] theorem offer_lastAck (s : State) (e : Event) : (s.offer e).lastAck = s.lastAck := rfl
@[simp] theorem offer_pollInterval (s : State) (e : Event) : (s.offer e).pollInterval = s.pollInterval := rfl
@[simp] theorem offer_maxPolls (s : State) (e : Event) : (s.offer e).maxPolls = s.maxPolls := rfl
@[simp] theorem offer_stallCount (s : State) (e : Event) : (s.offer e).stallCount = s.stallCount := rfl
@[simp] theorem offer_rxCount (s : State) (e : Event) : (s.offer e).rxCount = s.rxCount := rfl
@[simp] theorem offer_rxCsum (s : State) (e : Event) : (s.offer e).rxCsum = s.rxCsum := rfl
@[simp] theorem offer_txCsum (s : State) (e : Event) : (s.offer e).txCsum = s.txCsum := rfl
@[simp] theorem offer_intEn (s : State) (e : Event) : (s.offer e).intEn = s.intEn := rfl
@[simp] theorem offer_mem (s : State) (e : Event) : (s.offer e).mem = s.mem := rfl
@[simp] theorem offer_rxFifo (s : State) (e : Event) : (s.offer e).rxFifo = s.rxFifo := rfl
@[simp] theorem offer_txStream (s : State) (e : Event) : (s.offer e).txStream = s.txStream := rfl
@[simp] theorem offer_moduleWaiting (s : State) (e : Event) : (s.offer e).moduleWaiting = s.moduleWaiting := rfl
@[simp] theorem offer_platform (s : State) (e : Event) : (s.offer e).platform = s.platform := rfl
@[simp] theorem offer_host (s : State) (e : Event) : (s.offer e).host = s.host := rfl
@[simp] theorem offer_driver (s : State) (e : Event) : (s.offer e).driver = s.driver := rfl
@[simp] theorem offer_inputs (s : State) (e : Event) : (s.offer e).inputs = [e] := rfl
@[simp] theorem offer_sched (s : State) (e : Event) : (s.offer e).sched = s.sched := rfl
@[simp] theorem offer_draws (s : State) (e : Event) : (s.offer e).draws = s.draws := rfl

/-! ### pend -/

@[simp] theorem pend_eng (s : State) (ws : List (Reg × Word32)) : (s.pend ws).eng = s.eng := rfl
@[simp] theorem pend_txIdx (s : State) (ws : List (Reg × Word32)) : (s.pend ws).txIdx = s.txIdx := rfl
@[simp] theorem pend_sleepLeft (s : State) (ws : List (Reg × Word32)) : (s.pend ws).sleepLeft = s.sleepLeft := rfl
@[simp] theorem pend_ctrl (s : State) (ws : List (Reg × Word32)) : (s.pend ws).ctrl = s.ctrl := rfl
@[simp] theorem pend_flags (s : State) (ws : List (Reg × Word32)) : (s.pend ws).flags = s.flags := rfl
@[simp] theorem pend_cmd (s : State) (ws : List (Reg × Word32)) : (s.pend ws).cmd = s.cmd := rfl
@[simp] theorem pend_param (s : State) (ws : List (Reg × Word32)) : (s.pend ws).param = s.param := rfl
@[simp] theorem pend_lastParam (s : State) (ws : List (Reg × Word32)) : (s.pend ws).lastParam = s.lastParam := rfl
@[simp] theorem pend_lastAck (s : State) (ws : List (Reg × Word32)) : (s.pend ws).lastAck = s.lastAck := rfl
@[simp] theorem pend_pollInterval (s : State) (ws : List (Reg × Word32)) : (s.pend ws).pollInterval = s.pollInterval := rfl
@[simp] theorem pend_maxPolls (s : State) (ws : List (Reg × Word32)) : (s.pend ws).maxPolls = s.maxPolls := rfl
@[simp] theorem pend_stallCount (s : State) (ws : List (Reg × Word32)) : (s.pend ws).stallCount = s.stallCount := rfl
@[simp] theorem pend_rxCount (s : State) (ws : List (Reg × Word32)) : (s.pend ws).rxCount = s.rxCount := rfl
@[simp] theorem pend_rxCsum (s : State) (ws : List (Reg × Word32)) : (s.pend ws).rxCsum = s.rxCsum := rfl
@[simp] theorem pend_txCsum (s : State) (ws : List (Reg × Word32)) : (s.pend ws).txCsum = s.txCsum := rfl
@[simp] theorem pend_intEn (s : State) (ws : List (Reg × Word32)) : (s.pend ws).intEn = s.intEn := rfl
@[simp] theorem pend_mem (s : State) (ws : List (Reg × Word32)) : (s.pend ws).mem = s.mem := rfl
@[simp] theorem pend_rxFifo (s : State) (ws : List (Reg × Word32)) : (s.pend ws).rxFifo = s.rxFifo := rfl
@[simp] theorem pend_txStream (s : State) (ws : List (Reg × Word32)) : (s.pend ws).txStream = s.txStream := rfl
@[simp] theorem pend_moduleWaiting (s : State) (ws : List (Reg × Word32)) : (s.pend ws).moduleWaiting = s.moduleWaiting := rfl
@[simp] theorem pend_platform (s : State) (ws : List (Reg × Word32)) : (s.pend ws).platform = s.platform := rfl
@[simp] theorem pend_host (s : State) (ws : List (Reg × Word32)) : (s.pend ws).host = { s.host with pending := s.host.pending ++ ws } := rfl
@[simp] theorem pend_driver (s : State) (ws : List (Reg × Word32)) : (s.pend ws).driver = s.driver := rfl
@[simp] theorem pend_inputs (s : State) (ws : List (Reg × Word32)) : (s.pend ws).inputs = s.inputs := rfl
@[simp] theorem pend_sched (s : State) (ws : List (Reg × Word32)) : (s.pend ws).sched = s.sched := rfl
@[simp] theorem pend_draws (s : State) (ws : List (Reg × Word32)) : (s.pend ws).draws = s.draws := rfl

/-! ### clearStatus -/

@[simp] theorem clearStatus_eng (s : State) (v : Word32) : (s.clearStatus v).eng = s.eng := rfl
@[simp] theorem clearStatus_txIdx (s : State) (v : Word32) : (s.clearStatus v).txIdx = s.txIdx := rfl
@[simp] theorem clearStatus_sleepLeft (s : State) (v : Word32) : (s.clearStatus v).sleepLeft = s.sleepLeft := rfl
@[simp] theorem clearStatus_ctrl (s : State) (v : Word32) : (s.clearStatus v).ctrl = s.ctrl := rfl
@[simp] theorem clearStatus_flags (s : State) (v : Word32) : (s.clearStatus v).flags = clearFlags v s.flags := rfl
@[simp] theorem clearStatus_cmd (s : State) (v : Word32) : (s.clearStatus v).cmd = s.cmd := rfl
@[simp] theorem clearStatus_param (s : State) (v : Word32) : (s.clearStatus v).param = s.param := rfl
@[simp] theorem clearStatus_lastParam (s : State) (v : Word32) : (s.clearStatus v).lastParam = s.lastParam := rfl
@[simp] theorem clearStatus_lastAck (s : State) (v : Word32) : (s.clearStatus v).lastAck = s.lastAck := rfl
@[simp] theorem clearStatus_pollInterval (s : State) (v : Word32) : (s.clearStatus v).pollInterval = s.pollInterval := rfl
@[simp] theorem clearStatus_maxPolls (s : State) (v : Word32) : (s.clearStatus v).maxPolls = s.maxPolls := rfl
@[simp] theorem clearStatus_stallCount (s : State) (v : Word32) : (s.clearStatus v).stallCount = s.stallCount := rfl
@[simp] theorem clearStatus_rxCount (s : State) (v : Word32) : (s.clearStatus v).rxCount = s.rxCount := rfl
@[simp] theorem clearStatus_rxCsum (s : State) (v : Word32) : (s.clearStatus v).rxCsum = s.rxCsum := rfl
@[simp] theorem clearStatus_txCsum (s : State) (v : Word32) : (s.clearStatus v).txCsum = s.txCsum := rfl
@[simp] theorem clearStatus_intEn (s : State) (v : Word32) : (s.clearStatus v).intEn = s.intEn := rfl
@[simp] theorem clearStatus_mem (s : State) (v : Word32) : (s.clearStatus v).mem = s.mem := rfl
@[simp] theorem clearStatus_rxFifo (s : State) (v : Word32) : (s.clearStatus v).rxFifo = s.rxFifo := rfl
@[simp] theorem clearStatus_txStream (s : State) (v : Word32) : (s.clearStatus v).txStream = s.txStream := rfl
@[simp] theorem clearStatus_moduleWaiting (s : State) (v : Word32) : (s.clearStatus v).moduleWaiting = s.moduleWaiting := rfl
@[simp] theorem clearStatus_platform (s : State) (v : Word32) : (s.clearStatus v).platform = s.platform := rfl
@[simp] theorem clearStatus_host (s : State) (v : Word32) : (s.clearStatus v).host = s.host := rfl
@[simp] theorem clearStatus_driver (s : State) (v : Word32) : (s.clearStatus v).driver = s.driver := rfl
@[simp] theorem clearStatus_inputs (s : State) (v : Word32) : (s.clearStatus v).inputs = s.inputs := rfl
@[simp] theorem clearStatus_sched (s : State) (v : Word32) : (s.clearStatus v).sched = s.sched := rfl
@[simp] theorem clearStatus_draws (s : State) (v : Word32) : (s.clearStatus v).draws = s.draws := rfl

/-! ### finish -/

@[simp] theorem finish_eng (s : State) : (s.finish).eng = .idle := rfl
@[simp] theorem finish_txIdx (s : State) : (s.finish).txIdx = s.txIdx := rfl
@[simp] theorem finish_sleepLeft (s : State) : (s.finish).sleepLeft = s.sleepLeft := rfl
@[simp] theorem finish_ctrl (s : State) : (s.finish).ctrl = s.ctrl := rfl
@[simp] theorem finish_flags (s : State) : (s.finish).flags = { s.flags with done := true } := rfl
@[simp] theorem finish_cmd (s : State) : (s.finish).cmd = s.cmd := rfl
@[simp] theorem finish_param (s : State) : (s.finish).param = s.param := rfl
@[simp] theorem finish_lastParam (s : State) : (s.finish).lastParam = s.lastParam := rfl
@[simp] theorem finish_lastAck (s : State) : (s.finish).lastAck = s.lastAck := rfl
@[simp] theorem finish_pollInterval (s : State) : (s.finish).pollInterval = s.pollInterval := rfl
@[simp] theorem finish_maxPolls (s : State) : (s.finish).maxPolls = s.maxPolls := rfl
@[simp] theorem finish_stallCount (s : State) : (s.finish).stallCount = s.stallCount := rfl
@[simp] theorem finish_rxCount (s : State) : (s.finish).rxCount = s.rxCount := rfl
@[simp] theorem finish_rxCsum (s : State) : (s.finish).rxCsum = s.rxCsum := rfl
@[simp] theorem finish_txCsum (s : State) : (s.finish).txCsum = s.txCsum := rfl
@[simp] theorem finish_intEn (s : State) : (s.finish).intEn = s.intEn := rfl
@[simp] theorem finish_mem (s : State) : (s.finish).mem = s.mem := rfl
@[simp] theorem finish_rxFifo (s : State) : (s.finish).rxFifo = s.rxFifo := rfl
@[simp] theorem finish_txStream (s : State) : (s.finish).txStream = s.txStream := rfl
@[simp] theorem finish_moduleWaiting (s : State) : (s.finish).moduleWaiting = s.moduleWaiting := rfl
@[simp] theorem finish_platform (s : State) : (s.finish).platform = s.platform := rfl
@[simp] theorem finish_host (s : State) : (s.finish).host = s.host := rfl
@[simp] theorem finish_driver (s : State) : (s.finish).driver = s.driver := rfl
@[simp] theorem finish_inputs (s : State) : (s.finish).inputs = s.inputs := rfl
@[simp] theorem finish_sched (s : State) : (s.finish).sched = s.sched := rfl
@[simp] theorem finish_draws (s : State) : (s.finish).draws = s.draws := rfl

/-! ### encodeTx -/

@[simp] theorem encodeTx_eng (s : State) : (s.encodeTx).eng = s.eng := rfl
@[simp] theorem encodeTx_txIdx (s : State) : (s.encodeTx).txIdx = s.txIdx := rfl
@[simp] theorem encodeTx_sleepLeft (s : State) : (s.encodeTx).sleepLeft = s.sleepLeft := rfl
@[simp] theorem encodeTx_ctrl (s : State) : (s.encodeTx).ctrl = s.ctrl := rfl
@[simp] theorem encodeTx_flags (s : State) : (s.encodeTx).flags = s.flags := rfl
@[simp] theorem encodeTx_cmd (s : State) : (s.encodeTx).cmd = s.cmd := rfl
@[simp] theorem encodeTx_param (s : State) : (s.encodeTx).param = s.param := rfl
@[simp] theorem encodeTx_lastParam (s : State) : (s.encodeTx).lastParam = s.lastParam := rfl
@[simp] theorem encodeTx_lastAck (s : State) : (s.encodeTx).lastAck = s.lastAck := rfl
@[simp] theorem encodeTx_pollInterval (s : State) : (s.encodeTx).pollInterval = s.pollInterval := rfl
@[simp] theorem encodeTx_maxPolls (s : State) : (s.encodeTx).maxPolls = s.maxPolls := rfl
@[simp] theorem encodeTx_stallCount (s : State) : (s.encodeTx).stallCount = s.stallCount := rfl
@[simp] theorem encodeTx_rxCount (s : State) : (s.encodeTx).rxCount = s.rxCount := rfl
@[simp] theorem encodeTx_rxCsum (s : State) : (s.encodeTx).rxCsum = s.rxCsum := rfl
@[simp] theorem encodeTx_txCsum (s : State) : (s.encodeTx).txCsum = packetChecksum (encodeCommand s.cmd s.param) := rfl
@[simp] theorem encodeTx_intEn (s : State) : (s.encodeTx).intEn = s.intEn := rfl
@[simp] theorem encodeTx_mem (s : State) : (s.encodeTx).mem = Memory.writeAll s.mem Config.txBase (encodeCommand s.cmd s.param) := rfl
@[simp] theorem encodeTx_rxFifo (s : State) : (s.encodeTx).rxFifo = s.rxFifo := rfl
@[simp] theorem encodeTx_txStream (s : State) : (s.encodeTx).txStream = s.txStream := rfl
@[simp] theorem encodeTx_moduleWaiting (s : State) : (s.encodeTx).moduleWaiting = s.moduleWaiting := rfl
@[simp] theorem encodeTx_platform (s : State) : (s.encodeTx).platform = s.platform := rfl
@[simp] theorem encodeTx_host (s : State) : (s.encodeTx).host = s.host := rfl
@[simp] theorem encodeTx_driver (s : State) : (s.encodeTx).driver = s.driver := rfl
@[simp] theorem encodeTx_inputs (s : State) : (s.encodeTx).inputs = s.inputs := rfl
@[simp] theorem encodeTx_sched (s : State) : (s.encodeTx).sched = s.sched := rfl
@[simp] theorem encodeTx_draws (s : State) : (s.encodeTx).draws = s.draws := rfl

/-! ### decodeReply -/

@[simp] theorem decodeReply_eng (s : State) (p : List Byte) : (s.decodeReply p).eng = s.eng := rfl
@[simp] theorem decodeReply_txIdx (s : State) (p : List Byte) : (s.decodeReply p).txIdx = s.txIdx := rfl
@[simp] theorem decodeReply_sleepLeft (s : State) (p : List Byte) : (s.decodeReply p).sleepLeft = s.sleepLeft := rfl
@[simp] theorem decodeReply_ctrl (s : State) (p : List Byte) : (s.decodeReply p).ctrl = s.ctrl := rfl
@[simp] theorem decodeReply_flags (s : State) (p : List Byte) : (s.decodeReply p).flags = s.flags := rfl
@[simp] theorem decodeReply_cmd (s : State) (p : List Byte) : (s.decodeReply p).cmd = s.cmd := rfl
@[simp] theorem decodeReply_param (s : State) (p : List Byte) : (s.decodeReply p).param = s.param := rfl
@[simp] theorem decodeReply_lastParam (s : State) (p : List Byte) : (s.decodeReply p).lastParam = packetParameter p := rfl
@[simp] theorem decodeReply_lastAck (s : State) (p : List Byte) : (s.decodeReply p).lastAck = packetCommand p := rfl
@[simp] theorem decodeReply_pollInterval (s : State) (p : List Byte) : (s.decodeReply p).pollInterval = s.pollInterval := rfl
@[simp] theorem decodeReply_maxPolls (s : State) (p : List Byte) : (s.decodeReply p).maxPolls = s.maxPolls := rfl
@[simp] theorem decodeReply_stallCount (s : State) (p : List Byte) : (s.decodeReply p).stallCount = s.stallCount := rfl
@[simp] theorem decodeReply_rxCount (s : State) (p : List Byte) : (s.decodeReply p).rxCount = s.rxCount := rfl
@[simp] theorem decodeReply_rxCsum (s : State) (p : List Byte) : (s.decodeReply p).rxCsum = s.rxCsum := rfl
@[simp] theorem decodeReply_txCsum (s : State) (p : List Byte) : (s.decodeReply p).txCsum = s.txCsum := rfl
@[simp] theorem decodeReply_intEn (s : State) (p : List Byte) : (s.decodeReply p).intEn = s.intEn := rfl
@[simp] theorem decodeReply_mem (s : State) (p : List Byte) : (s.decodeReply p).mem = s.mem := rfl
@[simp] theorem decodeReply_rxFifo (s : State) (p : List Byte) : (s.decodeReply p).rxFifo = s.rxFifo := rfl
@[simp] theorem decodeReply_txStream (s : State) (p : List Byte) : (s.decodeReply p).txStream = s.txStream := rfl
@[simp] theorem decodeReply_moduleWaiting (s : State) (p : List Byte) : (s.decodeReply p).moduleWaiting = s.moduleWaiting := rfl
@[simp] theorem decodeReply_platform (s : State) (p : List Byte) : (s.decodeReply p).platform = s.platform := rfl
@[simp] theorem decodeReply_host (s : State) (p : List Byte) : (s.decodeReply p).host = s.host := rfl
@[simp] theorem decodeReply_driver (s : State) (p : List Byte) : (s.decodeReply p).driver = s.driver := rfl
@[simp] theorem decodeReply_inputs (s : State) (p : List Byte) : (s.decodeReply p).inputs = s.inputs := rfl
@[simp] theorem decodeReply_sched (s : State) (p : List Byte) : (s.decodeReply p).sched = s.sched := rfl
@[simp] theorem decodeReply_draws (s : State) (p : List Byte) : (s.decodeReply p).draws = s.draws := rfl

/-! ### raise -/

@[simp] theorem raise_txIdx (s : State) (e : BlockError) : (s.raise e).txIdx = s.txIdx := by
  cases e <;> rfl
@[simp] theorem raise_sleepLeft (s : State) (e : BlockError) : (s.raise e).sleepLeft = s.sleepLeft := by
  cases e <;> rfl
@[simp] theorem raise_ctrl (s : State) (e : BlockError) : (s.raise e).ctrl = s.ctrl := by
  cases e <;> rfl
@[simp] theorem raise_flags (s : State) (e : BlockError) : (s.raise e).flags = errorFlags e s.flags := by
  cases e <;> rfl
@[simp] theorem raise_cmd (s : State) (e : BlockError) : (s.raise e).cmd = s.cmd := by
  cases e <;> rfl
@[simp] theorem raise_param (s : State) (e : BlockError) : (s.raise e).param = s.param := by
  cases e <;> rfl
@[simp] theorem raise_lastParam (s : State) (e : BlockError) : (s.raise e).lastParam = s.lastParam := by
  cases e <;> rfl
@[simp] theorem raise_lastAck (s : State) (e : BlockError) : (s.raise e).lastAck = s.lastAck := by
  cases e <;> rfl
@[simp] theorem raise_pollInterval (s : State) (e : BlockError) : (s.raise e).pollInterval = s.pollInterval := by
  cases e <;> rfl
@[simp] theorem raise_maxPolls (s : State) (e : BlockError) : (s.raise e).maxPolls = s.maxPolls := by
  cases e <;> rfl
@[simp] theorem raise_stallCount (s : State) (e : BlockError) : (s.raise e).stallCount = s.stallCount := by
  cases e <;> rfl
@[simp] theorem raise_rxCount (s : State) (e : BlockError) : (s.raise e).rxCount = s.rxCount := by
  cases e <;> rfl
@[simp] theorem raise_rxCsum (s : State) (e : BlockError) : (s.raise e).rxCsum = s.rxCsum := by
  cases e <;> rfl
@[simp] theorem raise_txCsum (s : State) (e : BlockError) : (s.raise e).txCsum = s.txCsum := by
  cases e <;> rfl
@[simp] theorem raise_intEn (s : State) (e : BlockError) : (s.raise e).intEn = s.intEn := by
  cases e <;> rfl
@[simp] theorem raise_mem (s : State) (e : BlockError) : (s.raise e).mem = s.mem := by
  cases e <;> rfl
@[simp] theorem raise_rxFifo (s : State) (e : BlockError) : (s.raise e).rxFifo = s.rxFifo := by
  cases e <;> rfl
@[simp] theorem raise_txStream (s : State) (e : BlockError) : (s.raise e).txStream = s.txStream := by
  cases e <;> rfl
@[simp] theorem raise_moduleWaiting (s : State) (e : BlockError) : (s.raise e).moduleWaiting = s.moduleWaiting := by
  cases e <;> rfl
@[simp] theorem raise_platform (s : State) (e : BlockError) : (s.raise e).platform = s.platform := by
  cases e <;> rfl
@[simp] theorem raise_host (s : State) (e : BlockError) : (s.raise e).host = s.host := by
  cases e <;> rfl
@[simp] theorem raise_driver (s : State) (e : BlockError) : (s.raise e).driver = s.driver := by
  cases e <;> rfl
@[simp] theorem raise_inputs (s : State) (e : BlockError) : (s.raise e).inputs = s.inputs := by
  cases e <;> rfl
@[simp] theorem raise_sched (s : State) (e : BlockError) : (s.raise e).sched = s.sched := by
  cases e <;> rfl
@[simp] theorem raise_draws (s : State) (e : BlockError) : (s.raise e).draws = s.draws := by
  cases e <;> rfl

/-! ### storeRx -/

@[simp] theorem storeRx_eng (s : State) (k : Nat) (b : Byte) : (s.storeRx k b).eng = s.eng := by
  unfold State.storeRx; split <;> rfl
@[simp] theorem storeRx_txIdx (s : State) (k : Nat) (b : Byte) : (s.storeRx k b).txIdx = s.txIdx := by
  unfold State.storeRx; split <;> rfl
@[simp] theorem storeRx_sleepLeft (s : State) (k : Nat) (b : Byte) : (s.storeRx k b).sleepLeft = s.sleepLeft := by
  unfold State.storeRx; split <;> rfl
@[simp] theorem storeRx_ctrl (s : State) (k : Nat) (b : Byte) : (s.storeRx k b).ctrl = s.ctrl := by
  unfold State.storeRx; split <;> rfl
@[simp] theorem storeRx_flags (s : State) (k : Nat) (b : Byte) : (s.storeRx k b).flags = s.flags := by
  unfold State.storeRx; split <;> rfl
@[simp] theorem storeRx_cmd (s : State) (k : Nat) (b : Byte) : (s.storeRx k b).cmd = s.cmd := by
  unfold State.storeRx; split <;> rfl
@[simp] theorem storeRx_param (s : State) (k : Nat) (b : Byte) : (s.storeRx k b).param = s.param := by
  unfold State.storeRx; split <;> rfl
@[simp] theorem storeRx_lastParam (s : State) (k : Nat) (b : Byte) : (s.storeRx k b).lastParam = s.lastParam := by
  unfold State.storeRx; split <;> rfl
@[simp] theorem storeRx_lastAck (s : State) (k : Nat) (b : Byte) : (s.storeRx k b).lastAck = s.lastAck := by
  unfold State.storeRx; split <;> rfl
@[simp] theorem storeRx_pollInterval (s : State) (k : Nat) (b : Byte) : (s.storeRx k b).pollInterval = s.pollInterval := by
  unfold State.storeRx; split <;> rfl
@[simp] theorem storeRx_maxPolls (s : State) (k : Nat) (b : Byte) : (s.storeRx k b).maxPolls = s.maxPolls := by
  unfold State.storeRx; split <;> rfl
@[simp] theorem storeRx_stallCount (s : State) (k : Nat) (b : Byte) : (s.storeRx k b).stallCount = s.stallCount := by
  unfold State.storeRx; split <;> rfl
@[simp] theorem storeRx_rxCount (s : State) (k : Nat) (b : Byte) : (s.storeRx k b).rxCount = s.rxCount := by
  unfold State.storeRx; split <;> rfl
@[simp] theorem storeRx_rxCsum (s : State) (k : Nat) (b : Byte) : (s.storeRx k b).rxCsum = s.rxCsum := by
  unfold State.storeRx; split <;> rfl
@[simp] theorem storeRx_txCsum (s : State) (k : Nat) (b : Byte) : (s.storeRx k b).txCsum = s.txCsum := by
  unfold State.storeRx; split <;> rfl
@[simp] theorem storeRx_intEn (s : State) (k : Nat) (b : Byte) : (s.storeRx k b).intEn = s.intEn := by
  unfold State.storeRx; split <;> rfl
@[simp] theorem storeRx_rxFifo (s : State) (k : Nat) (b : Byte) : (s.storeRx k b).rxFifo = s.rxFifo := by
  unfold State.storeRx; split <;> rfl
@[simp] theorem storeRx_txStream (s : State) (k : Nat) (b : Byte) : (s.storeRx k b).txStream = s.txStream := by
  unfold State.storeRx; split <;> rfl
@[simp] theorem storeRx_moduleWaiting (s : State) (k : Nat) (b : Byte) : (s.storeRx k b).moduleWaiting = s.moduleWaiting := by
  unfold State.storeRx; split <;> rfl
@[simp] theorem storeRx_platform (s : State) (k : Nat) (b : Byte) : (s.storeRx k b).platform = s.platform := by
  unfold State.storeRx; split <;> rfl
@[simp] theorem storeRx_host (s : State) (k : Nat) (b : Byte) : (s.storeRx k b).host = s.host := by
  unfold State.storeRx; split <;> rfl
@[simp] theorem storeRx_driver (s : State) (k : Nat) (b : Byte) : (s.storeRx k b).driver = s.driver := by
  unfold State.storeRx; split <;> rfl
@[simp] theorem storeRx_inputs (s : State) (k : Nat) (b : Byte) : (s.storeRx k b).inputs = s.inputs := by
  unfold State.storeRx; split <;> rfl
@[simp] theorem storeRx_sched (s : State) (k : Nat) (b : Byte) : (s.storeRx k b).sched = s.sched := by
  unfold State.storeRx; split <;> rfl
@[simp] theorem storeRx_draws (s : State) (k : Nat) (b : Byte) : (s.storeRx k b).draws = s.draws := by
  unfold State.storeRx; split <;> rfl

/-! ### setCtrl -/

@[simp] theorem setCtrl_eng (s : State) (v : Word32) : (s.setCtrl v).eng = s.eng := rfl
@[simp] theorem setCtrl_txIdx (s : State) (v : Word32) : (s.setCtrl v).txIdx = s.txIdx := rfl
@[simp] theorem setCtrl_sleepLeft (s : State) (v : Word32) : (s.setCtrl v).sleepLeft = s.sleepLeft := rfl
@[simp] theorem setCtrl_ctrl (s : State) (v : Word32) : (s.setCtrl v).ctrl = ctrlOf v := rfl
@[simp] theorem setCtrl_flags (s : State) (v : Word32) : (s.setCtrl v).flags = s.flags := rfl
@[simp] theorem setCtrl_cmd (s : State) (v : Word32) : (s.setCtrl v).cmd = s.cmd := rfl
@[simp] theorem setCtrl_param (s : State) (v : Word32) : (s.setCtrl v).param = s.param := rfl
@[simp] theorem setCtrl_lastParam (s : State) (v : Word32) : (s.setCtrl v).lastParam = s.lastParam := rfl
@[simp] theorem setCtrl_lastAck (s : State) (v : Word32) : (s.setCtrl v).lastAck = s.lastAck := rfl
@[simp] theorem setCtrl_pollInterval (s : State) (v : Word32) : (s.setCtrl v).pollInterval = s.pollInterval := rfl
@[simp] theorem setCtrl_maxPolls (s : State) (v : Word32) : (s.setCtrl v).maxPolls = s.maxPolls := rfl
@[simp] theorem setCtrl_stallCount (s : State) (v : Word32) : (s.setCtrl v).stallCount = s.stallCount := rfl
@[simp] theorem setCtrl_rxCount (s : State) (v : Word32) : (s.setCtrl v).rxCount = s.rxCount := rfl
@[simp] theorem setCtrl_rxCsum (s : State) (v : Word32) : (s.setCtrl v).rxCsum = s.rxCsum := rfl
@[simp] theorem setCtrl_txCsum (s : State) (v : Word32) : (s.setCtrl v).txCsum = s.txCsum := rfl
@[simp] theorem setCtrl_intEn (s : State) (v : Word32) : (s.setCtrl v).intEn = s.intEn := rfl
@[simp] theorem setCtrl_mem (s : State) (v : Word32) : (s.setCtrl v).mem = s.mem := rfl
@[simp] theorem setCtrl_rxFifo (s : State) (v : Word32) : (s.setCtrl v).rxFifo = s.rxFifo := rfl
@[simp] theorem setCtrl_txStream (s : State) (v : Word32) : (s.setCtrl v).txStream = s.txStream := rfl
@[simp] theorem setCtrl_moduleWaiting (s : State) (v : Word32) : (s.setCtrl v).moduleWaiting = s.moduleWaiting := rfl
@[simp] theorem setCtrl_platform (s : State) (v : Word32) : (s.setCtrl v).platform = s.platform := rfl
@[simp] theorem setCtrl_host (s : State) (v : Word32) : (s.setCtrl v).host = s.host := rfl
@[simp] theorem setCtrl_driver (s : State) (v : Word32) : (s.setCtrl v).driver = s.driver := rfl
@[simp] theorem setCtrl_inputs (s : State) (v : Word32) : (s.setCtrl v).inputs = s.inputs := rfl
@[simp] theorem setCtrl_sched (s : State) (v : Word32) : (s.setCtrl v).sched = s.sched := rfl
@[simp] theorem setCtrl_draws (s : State) (v : Word32) : (s.setCtrl v).draws = s.draws := rfl

/-! ### clearForLaunch -/

@[simp] theorem clearForLaunch_eng (s : State) : (s.clearForLaunch).eng = s.eng := rfl
@[simp] theorem clearForLaunch_txIdx (s : State) : (s.clearForLaunch).txIdx = s.txIdx := rfl
@[simp] theorem clearForLaunch_sleepLeft (s : State) : (s.clearForLaunch).sleepLeft = s.sleepLeft := rfl
@[simp] theorem clearForLaunch_ctrl (s : State) : (s.clearForLaunch).ctrl = s.ctrl := rfl
@[simp] theorem clearForLaunch_flags (s : State) : (s.clearForLaunch).flags = launchFlags s.flags := rfl
@[simp] theorem clearForLaunch_cmd (s : State) : (s.clearForLaunch).cmd = s.cmd := rfl
@[simp] theorem clearForLaunch_param (s : State) : (s.clearForLaunch).param = s.param := rfl
@[simp] theorem clearForLaunch_lastParam (s : State) : (s.clearForLaunch).lastParam = s.lastParam := rfl
@[simp] theorem clearForLaunch_lastAck (s : State) : (s.clearForLaunch).lastAck = s.lastAck := rfl
@[simp] theorem clearForLaunch_pollInterval (s : State) : (s.clearForLaunch).pollInterval = s.pollInterval := rfl
@[simp] theorem clearForLaunch_maxPolls (s : State) : (s.clearForLaunch).maxPolls = s.maxPolls := rfl
@[simp] theorem clearForLaunch_stallCount (s : State) : (s.clearForLaunch).stallCount = 0#16 := rfl
@[simp] theorem clearForLaunch_rxCount (s : State) : (s.clearForLaunch).rxCount = 0#10 := rfl
@[simp] theorem clearForLaunch_rxCsum (s : State) : (s.clearForLaunch).rxCsum = s.rxCsum := rfl
@[simp] theorem clearForLaunch_txCsum (s : State) : (s.clearForLaunch).txCsum = s.txCsum := rfl
@[simp] theorem clearForLaunch_intEn (s : State) : (s.clearForLaunch).intEn = s.intEn := rfl
@[simp] theorem clearForLaunch_mem (s : State) : (s.clearForLaunch).mem = s.mem := rfl
@[simp] theorem clearForLaunch_rxFifo (s : State) : (s.clearForLaunch).rxFifo = s.rxFifo := rfl
@[simp] theorem clearForLaunch_txStream (s : State) : (s.clearForLaunch).txStream = s.txStream := rfl
@[simp] theorem clearForLaunch_moduleWaiting (s : State) : (s.clearForLaunch).moduleWaiting = s.moduleWaiting := rfl
@[simp] theorem clearForLaunch_platform (s : State) : (s.clearForLaunch).platform = s.platform := rfl
@[simp] theorem clearForLaunch_host (s : State) : (s.clearForLaunch).host = s.host := rfl
@[simp] theorem clearForLaunch_driver (s : State) : (s.clearForLaunch).driver = s.driver := rfl
@[simp] theorem clearForLaunch_inputs (s : State) : (s.clearForLaunch).inputs = s.inputs := rfl
@[simp] theorem clearForLaunch_sched (s : State) : (s.clearForLaunch).sched = s.sched := rfl
@[simp] theorem clearForLaunch_draws (s : State) : (s.clearForLaunch).draws = s.draws := rfl

/-! ### startSend -/

@[simp] theorem startSend_eng (s : State) : (s.startSend).eng = .send := rfl
@[simp] theorem startSend_txIdx (s : State) : (s.startSend).txIdx = 0 := rfl
@[simp] theorem startSend_sleepLeft (s : State) : (s.startSend).sleepLeft = s.sleepLeft := rfl
@[simp] theorem startSend_ctrl (s : State) : (s.startSend).ctrl = s.ctrl := rfl
@[simp] theorem startSend_flags (s : State) : (s.startSend).flags = s.flags := rfl
@[simp] theorem startSend_cmd (s : State) : (s.startSend).cmd = s.cmd := rfl
@[simp] theorem startSend_param (s : State) : (s.startSend).param = s.param := rfl
@[simp] theorem startSend_lastParam (s : State) : (s.startSend).lastParam = s.lastParam := rfl
@[simp] theorem startSend_lastAck (s : State) : (s.startSend).lastAck = s.lastAck := rfl
@[simp] theorem startSend_pollInterval (s : State) : (s.startSend).pollInterval = s.pollInterval := rfl
@[simp] theorem startSend_maxPolls (s : State) : (s.startSend).maxPolls = s.maxPolls := rfl
@[simp] theorem startSend_stallCount (s : State) : (s.startSend).stallCount = s.stallCount := rfl
@[simp] theorem startSend_rxCount (s : State) : (s.startSend).rxCount = s.rxCount := rfl
@[simp] theorem startSend_rxCsum (s : State) : (s.startSend).rxCsum = s.rxCsum := rfl
@[simp] theorem startSend_txCsum (s : State) : (s.startSend).txCsum = s.encodeTx.txCsum := rfl
@[simp] theorem startSend_intEn (s : State) : (s.startSend).intEn = s.intEn := rfl
@[simp] theorem startSend_mem (s : State) : (s.startSend).mem = s.encodeTx.mem := rfl
@[simp] theorem startSend_rxFifo (s : State) : (s.startSend).rxFifo = s.rxFifo := rfl
@[simp] theorem startSend_txStream (s : State) : (s.startSend).txStream = s.txStream := rfl
@[simp] theorem startSend_moduleWaiting (s : State) : (s.startSend).moduleWaiting = s.moduleWaiting := rfl
@[simp] theorem startSend_platform (s : State) : (s.startSend).platform = s.platform := rfl
@[simp] theorem startSend_host (s : State) : (s.startSend).host = s.host := rfl
@[simp] theorem startSend_driver (s : State) : (s.startSend).driver = s.driver := rfl
@[simp] theorem startSend_inputs (s : State) : (s.startSend).inputs = s.inputs := rfl
@[simp] theorem startSend_sched (s : State) : (s.startSend).sched = s.sched := rfl
@[simp] theorem startSend_draws (s : State) : (s.startSend).draws = s.draws := rfl

/-! ### startRecv -/

@[simp] theorem startRecv_eng (s : State) : (s.startRecv).eng = .recv := rfl
@[simp] theorem startRecv_txIdx (s : State) : (s.startRecv).txIdx = s.txIdx := rfl
@[simp] theorem startRecv_sleepLeft (s : State) : (s.startRecv).sleepLeft = s.sleepLeft := rfl
@[simp] theorem startRecv_ctrl (s : State) : (s.startRecv).ctrl = s.ctrl := rfl
@[simp] theorem startRecv_flags (s : State) : (s.startRecv).flags = s.flags := rfl
@[simp] theorem startRecv_cmd (s : State) : (s.startRecv).cmd = s.cmd := rfl
@[simp] theorem startRecv_param (s : State) : (s.startRecv).param = s.param := rfl
@[simp] theorem startRecv_lastParam (s : State) : (s.startRecv).lastParam = s.lastParam := rfl
@[simp] theorem startRecv_lastAck (s : State) : (s.startRecv).lastAck = s.lastAck := rfl
@[simp] theorem startRecv_pollInterval (s : State) : (s.startRecv).pollInterval = s.pollInterval := rfl
@[simp] theorem startRecv_maxPolls (s : State) : (s.startRecv).maxPolls = s.maxPolls := rfl
@[simp] theorem startRecv_stallCount (s : State) : (s.startRecv).stallCount = s.stallCount := rfl
@[simp] theorem startRecv_rxCount (s : State) : (s.startRecv).rxCount = s.rxCount := rfl
@[simp] theorem startRecv_rxCsum (s : State) : (s.startRecv).rxCsum = s.rxCsum := rfl
@[simp] theorem startRecv_txCsum (s : State) : (s.startRecv).txCsum = s.txCsum := rfl
@[simp] theorem startRecv_intEn (s : State) : (s.startRecv).intEn = s.intEn := rfl
@[simp] theorem startRecv_mem (s : State) : (s.startRecv).mem = s.mem := rfl
@[simp] theorem startRecv_rxFifo (s : State) : (s.startRecv).rxFifo = s.rxFifo := rfl
@[simp] theorem startRecv_txStream (s : State) : (s.startRecv).txStream = s.txStream := rfl
@[simp] theorem startRecv_moduleWaiting (s : State) : (s.startRecv).moduleWaiting = s.moduleWaiting := rfl
@[simp] theorem startRecv_platform (s : State) : (s.startRecv).platform = s.platform := rfl
@[simp] theorem startRecv_host (s : State) : (s.startRecv).host = s.host := rfl
@[simp] theorem startRecv_driver (s : State) : (s.startRecv).driver = s.driver := rfl
@[simp] theorem startRecv_inputs (s : State) : (s.startRecv).inputs = s.inputs := rfl
@[simp] theorem startRecv_sched (s : State) : (s.startRecv).sched = s.sched := rfl
@[simp] theorem startRecv_draws (s : State) : (s.startRecv).draws = s.draws := rfl

/-! ### startOp -/

@[simp] theorem startOp_sleepLeft (s : State) : (s.startOp).sleepLeft = s.sleepLeft := by
  unfold State.startOp; split <;> rfl
@[simp] theorem startOp_ctrl (s : State) : (s.startOp).ctrl = s.ctrl := by
  unfold State.startOp; split <;> rfl
@[simp] theorem startOp_flags (s : State) : (s.startOp).flags = s.flags := by
  unfold State.startOp; split <;> rfl
@[simp] theorem startOp_cmd (s : State) : (s.startOp).cmd = s.cmd := by
  unfold State.startOp; split <;> rfl
@[simp] theorem startOp_param (s : State) : (s.startOp).param = s.param := by
  unfold State.startOp; split <;> rfl
@[simp] theorem startOp_lastParam (s : State) : (s.startOp).lastParam = s.lastParam := by
  unfold State.startOp; split <;> rfl
@[simp] theorem startOp_lastAck (s : State) : (s.startOp).lastAck = s.lastAck := by
  unfold State.startOp; split <;> rfl
@[simp] theorem startOp_pollInterval (s : State) : (s.startOp).pollInterval = s.pollInterval := by
  unfold State.startOp; split <;> rfl
@[simp] theorem startOp_maxPolls (s : State) : (s.startOp).maxPolls = s.maxPolls := by
  unfold State.startOp; split <;> rfl
@[simp] theorem startOp_stallCount (s : State) : (s.startOp).stallCount = s.stallCount := by
  unfold State.startOp; split <;> rfl
@[simp] theorem startOp_rxCount (s : State) : (s.startOp).rxCount = s.rxCount := by
  unfold State.startOp; split <;> rfl
@[simp] theorem startOp_rxCsum (s : State) : (s.startOp).rxCsum = s.rxCsum := by
  unfold State.startOp; split <;> rfl
@[simp] theorem startOp_intEn (s : State) : (s.startOp).intEn = s.intEn := by
  unfold State.startOp; split <;> rfl
@[simp] theorem startOp_rxFifo (s : State) : (s.startOp).rxFifo = s.rxFifo := by
  unfold State.startOp; split <;> rfl
@[simp] theorem startOp_txStream (s : State) : (s.startOp).txStream = s.txStream := by
  unfold State.startOp; split <;> rfl
@[simp] theorem startOp_moduleWaiting (s : State) : (s.startOp).moduleWaiting = s.moduleWaiting := by
  unfold State.startOp; split <;> rfl
@[simp] theorem startOp_platform (s : State) : (s.startOp).platform = s.platform := by
  unfold State.startOp; split <;> rfl
@[simp] theorem startOp_host (s : State) : (s.startOp).host = s.host := by
  unfold State.startOp; split <;> rfl
@[simp] theorem startOp_driver (s : State) : (s.startOp).driver = s.driver := by
  unfold State.startOp; split <;> rfl
@[simp] theorem startOp_inputs (s : State) : (s.startOp).inputs = s.inputs := by
  unfold State.startOp; split <;> rfl
@[simp] theorem startOp_sched (s : State) : (s.startOp).sched = s.sched := by
  unfold State.startOp; split <;> rfl
@[simp] theorem startOp_draws (s : State) : (s.startOp).draws = s.draws := by
  unfold State.startOp; split <;> rfl

/-! ### pushNext -/

@[simp] theorem pushNext_eng (s : State) : (s.pushNext).eng = s.eng := rfl
@[simp] theorem pushNext_txIdx (s : State) : (s.pushNext).txIdx = s.txIdx + 1 := rfl
@[simp] theorem pushNext_sleepLeft (s : State) : (s.pushNext).sleepLeft = s.sleepLeft := rfl
@[simp] theorem pushNext_ctrl (s : State) : (s.pushNext).ctrl = s.ctrl := rfl
@[simp] theorem pushNext_flags (s : State) : (s.pushNext).flags = s.flags := rfl
@[simp] theorem pushNext_cmd (s : State) : (s.pushNext).cmd = s.cmd := rfl
@[simp] theorem pushNext_param (s : State) : (s.pushNext).param = s.param := rfl
@[simp] theorem pushNext_lastParam (s : State) : (s.pushNext).lastParam = s.lastParam := rfl
@[simp] theorem pushNext_lastAck (s : State) : (s.pushNext).lastAck = s.lastAck := rfl
@[simp] theorem pushNext_pollInterval (s : State) : (s.pushNext).pollInterval = s.pollInterval := rfl
@[simp] theorem pushNext_maxPolls (s : State) : (s.pushNext).maxPolls = s.maxPolls := rfl
@[simp] theorem pushNext_stallCount (s : State) : (s.pushNext).stallCount = s.stallCount := rfl
@[simp] theorem pushNext_rxCount (s : State) : (s.pushNext).rxCount = s.rxCount := rfl
@[simp] theorem pushNext_rxCsum (s : State) : (s.pushNext).rxCsum = s.rxCsum := rfl
@[simp] theorem pushNext_txCsum (s : State) : (s.pushNext).txCsum = s.txCsum := rfl
@[simp] theorem pushNext_intEn (s : State) : (s.pushNext).intEn = s.intEn := rfl
@[simp] theorem pushNext_mem (s : State) : (s.pushNext).mem = s.mem := rfl
@[simp] theorem pushNext_rxFifo (s : State) : (s.pushNext).rxFifo = s.rxFifo := rfl
@[simp] theorem pushNext_txStream (s : State) : (s.pushNext).txStream = s.txStream ++ [s.txBuf s.txIdx] := rfl
@[simp] theorem pushNext_moduleWaiting (s : State) : (s.pushNext).moduleWaiting = s.moduleWaiting := rfl
@[simp] theorem pushNext_platform (s : State) : (s.pushNext).platform = s.platform := rfl
@[simp] theorem pushNext_host (s : State) : (s.pushNext).host = s.host := rfl
@[simp] theorem pushNext_driver (s : State) : (s.pushNext).driver = s.driver := rfl
@[simp] theorem pushNext_inputs (s : State) : (s.pushNext).inputs = s.inputs := rfl
@[simp] theorem pushNext_sched (s : State) : (s.pushNext).sched = s.sched := rfl
@[simp] theorem pushNext_draws (s : State) : (s.pushNext).draws = s.draws := rfl

/-! ### recordCsum -/

@[simp] theorem recordCsum_eng (s : State) (p : List Byte) : (s.recordCsum p).eng = s.eng := rfl
@[simp] theorem recordCsum_txIdx (s : State) (p : List Byte) : (s.recordCsum p).txIdx = s.txIdx := rfl
@[simp] theorem recordCsum_sleepLeft (s : State) (p : List Byte) : (s.recordCsum p).sleepLeft = s.sleepLeft := rfl
@[simp] theorem recordCsum_ctrl (s : State) (p : List Byte) : (s.recordCsum p).ctrl = s.ctrl := rfl
@[simp] theorem recordCsum_flags (s : State) (p : List Byte) : (s.recordCsum p).flags = s.flags := rfl
@[simp] theorem recordCsum_cmd (s : State) (p : List Byte) : (s.recordCsum p).cmd = s.cmd := rfl
@[simp] theorem recordCsum_param (s : State) (p : List Byte) : (s.recordCsum p).param = s.param := rfl
@[simp] theorem recordCsum_lastParam (s : State) (p : List Byte) : (s.recordCsum p).lastParam = s.lastParam := rfl
@[simp] theorem recordCsum_lastAck (s : State) (p : List Byte) : (s.recordCsum p).lastAck = s.lastAck := rfl
@[simp] theorem recordCsum_pollInterval (s : State) (p : List Byte) : (s.recordCsum p).pollInterval = s.pollInterval := rfl
@[simp] theorem recordCsum_maxPolls (s : State) (p : List Byte) : (s.recordCsum p).maxPolls = s.maxPolls := rfl
@[simp] theorem recordCsum_stallCount (s : State) (p : List Byte) : (s.recordCsum p).stallCount = s.stallCount := rfl
@[simp] theorem recordCsum_rxCount (s : State) (p : List Byte) : (s.recordCsum p).rxCount = s.rxCount := rfl
@[simp] theorem recordCsum_rxCsum (s : State) (p : List Byte) : (s.recordCsum p).rxCsum = packetChecksum p ++ packetSum p := rfl
@[simp] theorem recordCsum_txCsum (s : State) (p : List Byte) : (s.recordCsum p).txCsum = s.txCsum := rfl
@[simp] theorem recordCsum_intEn (s : State) (p : List Byte) : (s.recordCsum p).intEn = s.intEn := rfl
@[simp] theorem recordCsum_mem (s : State) (p : List Byte) : (s.recordCsum p).mem = s.mem := rfl
@[simp] theorem recordCsum_rxFifo (s : State) (p : List Byte) : (s.recordCsum p).rxFifo = s.rxFifo := rfl
@[simp] theorem recordCsum_txStream (s : State) (p : List Byte) : (s.recordCsum p).txStream = s.txStream := rfl
@[simp] theorem recordCsum_moduleWaiting (s : State) (p : List Byte) : (s.recordCsum p).moduleWaiting = s.moduleWaiting := rfl
@[simp] theorem recordCsum_platform (s : State) (p : List Byte) : (s.recordCsum p).platform = s.platform := rfl
@[simp] theorem recordCsum_host (s : State) (p : List Byte) : (s.recordCsum p).host = s.host := rfl
@[simp] theorem recordCsum_driver (s : State) (p : List Byte) : (s.recordCsum p).driver = s.driver := rfl
@[simp] theorem recordCsum_inputs (s : State) (p : List Byte) : (s.recordCsum p).inputs = s.inputs := rfl
@[simp] theorem recordCsum_sched (s : State) (p : List Byte) : (s.recordCsum p).sched = s.sched := rfl
@[simp] theorem recordCsum_draws (s : State) (p : List Byte) : (s.recordCsum p).draws = s.draws := rfl

/-! ### takeByte -/

@[simp] theorem takeByte_eng (s : State) (b : Byte) (rest : List Byte) : (s.takeByte b rest).eng = s.eng := by
  simp [State.takeByte]
@[simp] theorem takeByte_txIdx (s : State) (b : Byte) (rest : List Byte) : (s.takeByte b rest).txIdx = s.txIdx := by
  simp [State.takeByte]
@[simp] theorem takeByte_sleepLeft (s : State) (b : Byte) (rest : List Byte) : (s.takeByte b rest).sleepLeft = s.sleepLeft := by
  simp [State.takeByte]
@[simp] theorem takeByte_ctrl (s : State) (b : Byte) (rest : List Byte) : (s.takeByte b rest).ctrl = s.ctrl := by
  simp [State.takeByte]
@[simp] theorem takeByte_flags (s : State) (b : Byte) (rest : List Byte) : (s.takeByte b rest).flags = s.flags := by
  simp [State.takeByte]
@[simp] theorem takeByte_cmd (s : State) (b : Byte) (rest : List Byte) : (s.takeByte b rest).cmd = s.cmd := by
  simp [State.takeByte]
@[simp] theorem takeByte_param (s : State) (b : Byte) (rest : List Byte) : (s.takeByte b rest).param = s.param := by
  simp [State.takeByte]
@[simp] theorem takeByte_lastParam (s : State) (b : Byte) (rest : List Byte) : (s.takeByte b rest).lastParam = s.lastParam := by
  simp [State.takeByte]
@[simp] theorem takeByte_lastAck (s : State) (b : Byte) (rest : List Byte) : (s.takeByte b rest).lastAck = s.lastAck := by
  simp [State.takeByte]
@[simp] theorem takeByte_pollInterval (s : State) (b : Byte) (rest : List Byte) : (s.takeByte b rest).pollInterval = s.pollInterval := by
  simp [State.takeByte]
@[simp] theorem takeByte_maxPolls (s : State) (b : Byte) (rest : List Byte) : (s.takeByte b rest).maxPolls = s.maxPolls := by
  simp [State.takeByte]
@[simp] theorem takeByte_stallCount (s : State) (b : Byte) (rest : List Byte) : (s.takeByte b rest).stallCount = s.stallCount := by
  simp [State.takeByte]
@[simp] theorem takeByte_rxCount (s : State) (b : Byte) (rest : List Byte) : (s.takeByte b rest).rxCount = s.rxCount + 1#10 := by
  simp [State.takeByte]
@[simp] theorem takeByte_rxCsum (s : State) (b : Byte) (rest : List Byte) : (s.takeByte b rest).rxCsum = s.rxCsum := by
  simp [State.takeByte]
@[simp] theorem takeByte_txCsum (s : State) (b : Byte) (rest : List Byte) : (s.takeByte b rest).txCsum = s.txCsum := by
  simp [State.takeByte]
@[simp] theorem takeByte_intEn (s : State) (b : Byte) (rest : List Byte) : (s.takeByte b rest).intEn = s.intEn := by
  simp [State.takeByte]
@[simp] theorem takeByte_mem (s : State) (b : Byte) (rest : List Byte) : (s.takeByte b rest).mem = (s.storeRx s.rxCount.toNat b).mem := by
  simp [State.takeByte]
@[simp] theorem takeByte_rxFifo (s : State) (b : Byte) (rest : List Byte) : (s.takeByte b rest).rxFifo = rest := by
  simp [State.takeByte]
@[simp] theorem takeByte_txStream (s : State) (b : Byte) (rest : List Byte) : (s.takeByte b rest).txStream = s.txStream := by
  simp [State.takeByte]
@[simp] theorem takeByte_moduleWaiting (s : State) (b : Byte) (rest : List Byte) : (s.takeByte b rest).moduleWaiting = s.moduleWaiting := by
  simp [State.takeByte]
@[simp] theorem takeByte_platform (s : State) (b : Byte) (rest : List Byte) : (s.takeByte b rest).platform = s.platform := by
  simp [State.takeByte]
@[simp] theorem takeByte_host (s : State) (b : Byte) (rest : List Byte) : (s.takeByte b rest).host = s.host := by
  simp [State.takeByte]
@[simp] theorem takeByte_driver (s : State) (b : Byte) (rest : List Byte) : (s.takeByte b rest).driver = s.driver := by
  simp [State.takeByte]
@[simp] theorem takeByte_inputs (s : State) (b : Byte) (rest : List Byte) : (s.takeByte b rest).inputs = s.inputs := by
  simp [State.takeByte]
@[simp] theorem takeByte_sched (s : State) (b : Byte) (rest : List Byte) : (s.takeByte b rest).sched = s.sched := by
  simp [State.takeByte]
@[simp] theorem takeByte_draws (s : State) (b : Byte) (rest : List Byte) : (s.takeByte b rest).draws = s.draws := by
  simp [State.takeByte]

/-! ### countStall -/

@[simp] theorem countStall_eng (s : State) : (s.countStall).eng = s.eng := rfl
@[simp] theorem countStall_txIdx (s : State) : (s.countStall).txIdx = s.txIdx := rfl
@[simp] theorem countStall_sleepLeft (s : State) : (s.countStall).sleepLeft = s.sleepLeft := rfl
@[simp] theorem countStall_ctrl (s : State) : (s.countStall).ctrl = s.ctrl := rfl
@[simp] theorem countStall_flags (s : State) : (s.countStall).flags = s.flags := rfl
@[simp] theorem countStall_cmd (s : State) : (s.countStall).cmd = s.cmd := rfl
@[simp] theorem countStall_param (s : State) : (s.countStall).param = s.param := rfl
@[simp] theorem countStall_lastParam (s : State) : (s.countStall).lastParam = s.lastParam := rfl
@[simp] theorem countStall_lastAck (s : State) : (s.countStall).lastAck = s.lastAck := rfl
@[simp] theorem countStall_pollInterval (s : State) : (s.countStall).pollInterval = s.pollInterval := rfl
@[simp] theorem countStall_maxPolls (s : State) : (s.countStall).maxPolls = s.maxPolls := rfl
@[simp] theorem countStall_stallCount (s : State) : (s.countStall).stallCount = s.stallCount + 1#16 := rfl
@[simp] theorem countStall_rxCount (s : State) : (s.countStall).rxCount = s.rxCount := rfl
@[simp] theorem countStall_rxCsum (s : State) : (s.countStall).rxCsum = s.rxCsum := rfl
@[simp] theorem countStall_txCsum (s : State) : (s.countStall).txCsum = s.txCsum := rfl
@[simp] theorem countStall_intEn (s : State) : (s.countStall).intEn = s.intEn := rfl
@[simp] theorem countStall_mem (s : State) : (s.countStall).mem = s.mem := rfl
@[simp] theorem countStall_rxFifo (s : State) : (s.countStall).rxFifo = s.rxFifo := rfl
@[simp] theorem countStall_txStream (s : State) : (s.countStall).txStream = s.txStream := rfl
@[simp] theorem countStall_moduleWaiting (s : State) : (s.countStall).moduleWaiting = s.moduleWaiting := rfl
@[simp] theorem countStall_platform (s : State) : (s.countStall).platform = s.platform := rfl
@[simp] theorem countStall_host (s : State) : (s.countStall).host = s.host := rfl
@[simp] theorem countStall_driver (s : State) : (s.countStall).driver = s.driver := rfl
@[simp] theorem countStall_inputs (s : State) : (s.countStall).inputs = s.inputs := rfl
@[simp] theorem countStall_sched (s : State) : (s.countStall).sched = s.sched := rfl
@[simp] theorem countStall_draws (s : State) : (s.countStall).draws = s.draws := rfl

/-! ### pollAgain -/

@[simp] theorem pollAgain_eng (s : State) : (s.pollAgain).eng = .recv := rfl
@[simp] theorem pollAgain_txIdx (s : State) : (s.pollAgain).txIdx = s.txIdx := rfl
@[simp] theorem pollAgain_sleepLeft (s : State) : (s.pollAgain).sleepLeft = s.sleepLeft := rfl
@[simp] theorem pollAgain_ctrl (s : State) : (s.pollAgain).ctrl = s.ctrl := rfl
@[simp] theorem pollAgain_flags (s : State) : (s.pollAgain).flags = s.flags := rfl
@[simp] theorem pollAgain_cmd (s : State) : (s.pollAgain).cmd = s.cmd := rfl
@[simp] theorem pollAgain_param (s : State) : (s.pollAgain).param = s.param := rfl
@[simp] theorem pollAgain_lastParam (s : State) : (s.pollAgain).lastParam = s.lastParam := rfl
@[simp] theorem pollAgain_lastAck (s : State) : (s.pollAgain).lastAck = s.lastAck := rfl
@[simp] theorem pollAgain_pollInterval (s : State) : (s.pollAgain).pollInterval = s.pollInterval := rfl
@[simp] theorem pollAgain_maxPolls (s : State) : (s.pollAgain).maxPolls = s.maxPolls := rfl
@[simp] theorem pollAgain_stallCount (s : State) : (s.pollAgain).stallCount = s.stallCount := rfl
@[simp] theorem pollAgain_rxCount (s : State) : (s.pollAgain).rxCount = s.rxCount := rfl
@[simp] theorem pollAgain_rxCsum (s : State) : (s.pollAgain).rxCsum = s.rxCsum := rfl
@[simp] theorem pollAgain_txCsum (s : State) : (s.pollAgain).txCsum = s.txCsum := rfl
@[simp] theorem pollAgain_intEn (s : State) : (s.pollAgain).intEn = s.intEn := rfl
@[simp] theorem pollAgain_mem (s : State) : (s.pollAgain).mem = s.mem := rfl
@[simp] theorem pollAgain_rxFifo (s : State) : (s.pollAgain).rxFifo = s.rxFifo := rfl
@[simp] theorem pollAgain_txStream (s : State) : (s.pollAgain).txStream = s.txStream := rfl
@[simp] theorem pollAgain_moduleWaiting (s : State) : (s.pollAgain).moduleWaiting = s.moduleWaiting := rfl
@[simp] theorem pollAgain_platform (s : State) : (s.pollAgain).platform = s.platform := rfl
@[simp] theorem pollAgain_host (s : State) : (s.pollAgain).host = s.host := rfl
@[simp] theorem pollAgain_driver (s : State) : (s.pollAgain).driver = s.driver := rfl
@[simp] theorem pollAgain_inputs (s : State) : (s.pollAgain).inputs = s.inputs := rfl
@[simp] theorem pollAgain_sched (s : State) : (s.pollAgain).sched = s.sched := rfl
@[simp] theorem pollAgain_draws (s : State) : (s.pollAgain).draws = s.draws := rfl

/-! ### startSleep -/

@[simp] theorem startSleep_eng (s : State) : (s.startSleep).eng = .sleep := rfl
@[simp] theorem startSleep_txIdx (s : State) : (s.startSleep).txIdx = s.txIdx := rfl
@[simp] theorem startSleep_sleepLeft (s : State) : (s.startSleep).sleepLeft = s.pollInterval := rfl
@[simp] theorem startSleep_ctrl (s : State) : (s.startSleep).ctrl = s.ctrl := rfl
@[simp] theorem startSleep_flags (s : State) : (s.startSleep).flags = s.flags := rfl
@[simp] theorem startSleep_cmd (s : State) : (s.startSleep).cmd = s.cmd := rfl
@[simp] theorem startSleep_param (s : State) : (s.startSleep).param = s.param := rfl
@[simp] theorem startSleep_lastParam (s : State) : (s.startSleep).lastParam = s.lastParam := rfl
@[simp] theorem startSleep_lastAck (s : State) : (s.startSleep).lastAck = s.lastAck := rfl
@[simp] theorem startSleep_pollInterval (s : State) : (s.startSleep).pollInterval = s.pollInterval := rfl
@[simp] theorem startSleep_maxPolls (s : State) : (s.startSleep).maxPolls = s.maxPolls := rfl
@[simp] theorem startSleep_stallCount (s : State) : (s.startSleep).stallCount = s.stallCount := rfl
@[simp] theorem startSleep_rxCount (s : State) : (s.startSleep).rxCount = s.rxCount := rfl
@[simp] theorem startSleep_rxCsum (s : State) : (s.startSleep).rxCsum = s.rxCsum := rfl
@[simp] theorem startSleep_txCsum (s : State) : (s.startSleep).txCsum = s.txCsum := rfl
@[simp] theorem startSleep_intEn (s : State) : (s.startSleep).intEn = s.intEn := rfl
@[simp] theorem startSleep_mem (s : State) : (s.startSleep).mem = s.mem := rfl
@[simp] theorem startSleep_rxFifo (s : State) : (s.startSleep).rxFifo = s.rxFifo := rfl
@[simp] theorem startSleep_txStream (s : State) : (s.startSleep).txStream = s.txStream := rfl
@[simp] theorem startSleep_moduleWaiting (s : State) : (s.startSleep).moduleWaiting = s.moduleWaiting := rfl
@[simp] theorem startSleep_platform (s : State) : (s.startSleep).platform = s.platform := rfl
@[simp] theorem startSleep_host (s : State) : (s.startSleep).host = s.host := rfl
@[simp] theorem startSleep_driver (s : State) : (s.startSleep).driver = s.driver := rfl
@[simp] theorem startSleep_inputs (s : State) : (s.startSleep).inputs = s.inputs := rfl
@[simp] theorem startSleep_sched (s : State) : (s.startSleep).sched = s.sched := rfl
@[simp] theorem startSleep_draws (s : State) : (s.startSleep).draws = s.draws := rfl

/-! ### countTick -/

@[simp] theorem countTick_eng (s : State) : (s.countTick).eng = s.eng := rfl
@[simp] theorem countTick_txIdx (s : State) : (s.countTick).txIdx = s.txIdx := rfl
@[simp] theorem countTick_sleepLeft (s : State) : (s.countTick).sleepLeft = s.sleepLeft - 1#16 := rfl
@[simp] theorem countTick_ctrl (s : State) : (s.countTick).ctrl = s.ctrl := rfl
@[simp] theorem countTick_flags (s : State) : (s.countTick).flags = s.flags := rfl
@[simp] theorem countTick_cmd (s : State) : (s.countTick).cmd = s.cmd := rfl
@[simp] theorem countTick_param (s : State) : (s.countTick).param = s.param := rfl
@[simp] theorem countTick_lastParam (s : State) : (s.countTick).lastParam = s.lastParam := rfl
@[simp] theorem countTick_lastAck (s : State) : (s.countTick).lastAck = s.lastAck := rfl
@[simp] theorem countTick_pollInterval (s : State) : (s.countTick).pollInterval = s.pollInterval := rfl
@[simp] theorem countTick_maxPolls (s : State) : (s.countTick).maxPolls = s.maxPolls := rfl
@[simp] theorem countTick_stallCount (s : State) : (s.countTick).stallCount = s.stallCount := rfl
@[simp] theorem countTick_rxCount (s : State) : (s.countTick).rxCount = s.rxCount := rfl
@[simp] theorem countTick_rxCsum (s : State) : (s.countTick).rxCsum = s.rxCsum := rfl
@[simp] theorem countTick_txCsum (s : State) : (s.countTick).txCsum = s.txCsum := rfl
@[simp] theorem countTick_intEn (s : State) : (s.countTick).intEn = s.intEn := rfl
@[simp] theorem countTick_mem (s : State) : (s.countTick).mem = s.mem := rfl
@[simp] theorem countTick_rxFifo (s : State) : (s.countTick).rxFifo = s.rxFifo := rfl
@[simp] theorem countTick_txStream (s : State) : (s.countTick).txStream = s.txStream := rfl
@[simp] theorem countTick_moduleWaiting (s : State) : (s.countTick).moduleWaiting = s.moduleWaiting := rfl
@[simp] theorem countTick_platform (s : State) : (s.countTick).platform = s.platform := rfl
@[simp] theorem countTick_host (s : State) : (s.countTick).host = s.host := rfl
@[simp] theorem countTick_driver (s : State) : (s.countTick).driver = s.driver := rfl
@[simp] theorem countTick_inputs (s : State) : (s.countTick).inputs = s.inputs := rfl
@[simp] theorem countTick_sched (s : State) : (s.countTick).sched = s.sched := rfl
@[simp] theorem countTick_draws (s : State) : (s.countTick).draws = s.draws := rfl

/-! ### hostGoto -/

@[simp] theorem hostGoto_eng (s : State) (n : Nat) : (s.hostGoto n).eng = s.eng := rfl
@[simp] theorem hostGoto_txIdx (s : State) (n : Nat) : (s.hostGoto n).txIdx = s.txIdx := rfl
@[simp] theorem hostGoto_sleepLeft (s : State) (n : Nat) : (s.hostGoto n).sleepLeft = s.sleepLeft := rfl
@[simp] theorem hostGoto_ctrl (s : State) (n : Nat) : (s.hostGoto n).ctrl = s.ctrl := rfl
@[simp] theorem hostGoto_flags (s : State) (n : Nat) : (s.hostGoto n).flags = s.flags := rfl
@[simp] theorem hostGoto_cmd (s : State) (n : Nat) : (s.hostGoto n).cmd = s.cmd := rfl
@[simp] theorem hostGoto_param (s : State) (n : Nat) : (s.hostGoto n).param = s.param := rfl
@[simp] theorem hostGoto_lastParam (s : State) (n : Nat) : (s.hostGoto n).lastParam = s.lastParam := rfl
@[simp] theorem hostGoto_lastAck (s : State) (n : Nat) : (s.hostGoto n).lastAck = s.lastAck := rfl
@[simp] theorem hostGoto_pollInterval (s : State) (n : Nat) : (s.hostGoto n).pollInterval = s.pollInterval := rfl
@[simp] theorem hostGoto_maxPolls (s : State) (n : Nat) : (s.hostGoto n).maxPolls = s.maxPolls := rfl
@[simp] theorem hostGoto_stallCount (s : State) (n : Nat) : (s.hostGoto n).stallCount = s.stallCount := rfl
@[simp] theorem hostGoto_rxCount (s : State) (n : Nat) : (s.hostGoto n).rxCount = s.rxCount := rfl
@[simp] theorem hostGoto_rxCsum (s : State) (n : Nat) : (s.hostGoto n).rxCsum = s.rxCsum := rfl
@[simp] theorem hostGoto_txCsum (s : State) (n : Nat) : (s.hostGoto n).txCsum = s.txCsum := rfl
@[simp] theorem hostGoto_intEn (s : State) (n : Nat) : (s.hostGoto n).intEn = s.intEn := rfl
@[simp] theorem hostGoto_mem (s : State) (n : Nat) : (s.hostGoto n).mem = s.mem := rfl
@[simp] theorem hostGoto_rxFifo (s : State) (n : Nat) : (s.hostGoto n).rxFifo = s.rxFifo := rfl
@[simp] theorem hostGoto_txStream (s : State) (n : Nat) : (s.hostGoto n).txStream = s.txStream := rfl
@[simp] theorem hostGoto_moduleWaiting (s : State) (n : Nat) : (s.hostGoto n).moduleWaiting = s.moduleWaiting := rfl
@[simp] theorem hostGoto_platform (s : State) (n : Nat) : (s.hostGoto n).platform = s.platform := rfl
@[simp] theorem hostGoto_host (s : State) (n : Nat) : (s.hostGoto n).host = { s.host with pc := n } := rfl
@[simp] theorem hostGoto_driver (s : State) (n : Nat) : (s.hostGoto n).driver = s.driver := rfl
@[simp] theorem hostGoto_inputs (s : State) (n : Nat) : (s.hostGoto n).inputs = s.inputs := rfl
@[simp] theorem hostGoto_sched (s : State) (n : Nat) : (s.hostGoto n).sched = s.sched := rfl
@[simp] theorem hostGoto_draws (s : State) (n : Nat) : (s.hostGoto n).draws = s.draws := rfl

/-! ### hostNext -/

@[simp] theorem hostNext_eng (s : State) : (s.hostNext).eng = s.eng := rfl
@[simp] theorem hostNext_txIdx (s : State) : (s.hostNext).txIdx = s.txIdx := rfl
@[simp] theorem hostNext_sleepLeft (s : State) : (s.hostNext).sleepLeft = s.sleepLeft := rfl
@[simp] theorem hostNext_ctrl (s : State) : (s.hostNext).ctrl = s.ctrl := rfl
@[simp] theorem hostNext_flags (s : State) : (s.hostNext).flags = s.flags := rfl
@[simp] theorem hostNext_cmd (s : State) : (s.hostNext).cmd = s.cmd := rfl
@[simp] theorem hostNext_param (s : State) : (s.hostNext).param = s.param := rfl
@[simp] theorem hostNext_lastParam (s : State) : (s.hostNext).lastParam = s.lastParam := rfl
@[simp] theorem hostNext_lastAck (s : State) : (s.hostNext).lastAck = s.lastAck := rfl
@[simp] theorem hostNext_pollInterval (s : State) : (s.hostNext).pollInterval = s.pollInterval := rfl
@[simp] theorem hostNext_maxPolls (s : State) : (s.hostNext).maxPolls = s.maxPolls := rfl
@[simp] theorem hostNext_stallCount (s : State) : (s.hostNext).stallCount = s.stallCount := rfl
@[simp] theorem hostNext_rxCount (s : State) : (s.hostNext).rxCount = s.rxCount := rfl
@[simp] theorem hostNext_rxCsum (s : State) : (s.hostNext).rxCsum = s.rxCsum := rfl
@[simp] theorem hostNext_txCsum (s : State) : (s.hostNext).txCsum = s.txCsum := rfl
@[simp] theorem hostNext_intEn (s : State) : (s.hostNext).intEn = s.intEn := rfl
@[simp] theorem hostNext_mem (s : State) : (s.hostNext).mem = s.mem := rfl
@[simp] theorem hostNext_rxFifo (s : State) : (s.hostNext).rxFifo = s.rxFifo := rfl
@[simp] theorem hostNext_txStream (s : State) : (s.hostNext).txStream = s.txStream := rfl
@[simp] theorem hostNext_moduleWaiting (s : State) : (s.hostNext).moduleWaiting = s.moduleWaiting := rfl
@[simp] theorem hostNext_platform (s : State) : (s.hostNext).platform = s.platform := rfl
@[simp] theorem hostNext_host (s : State) : (s.hostNext).host = { s.host with pc := s.host.pc + 1 } := rfl
@[simp] theorem hostNext_driver (s : State) : (s.hostNext).driver = s.driver := rfl
@[simp] theorem hostNext_inputs (s : State) : (s.hostNext).inputs = s.inputs := rfl
@[simp] theorem hostNext_sched (s : State) : (s.hostNext).sched = s.sched := rfl
@[simp] theorem hostNext_draws (s : State) : (s.hostNext).draws = s.draws := rfl

/-! ### hostSet -/

@[simp] theorem hostSet_eng (s : State) (x : Nat) (v : Int) : (s.hostSet x v).eng = s.eng := rfl
@[simp] theorem hostSet_txIdx (s : State) (x : Nat) (v : Int) : (s.hostSet x v).txIdx = s.txIdx := rfl
@[simp] theorem hostSet_sleepLeft (s : State) (x : Nat) (v : Int) : (s.hostSet x v).sleepLeft = s.sleepLeft := rfl
@[simp] theorem hostSet_ctrl (s : State) (x : Nat) (v : Int) : (s.hostSet x v).ctrl = s.ctrl := rfl
@[simp] theorem hostSet_flags (s : State) (x : Nat) (v : Int) : (s.hostSet x v).flags = s.flags := rfl
@[simp] theorem hostSet_cmd (s : State) (x : Nat) (v : Int) : (s.hostSet x v).cmd = s.cmd := rfl
@[simp] theorem hostSet_param (s : State) (x : Nat) (v : Int) : (s.hostSet x v).param = s.param := rfl
@[simp] theorem hostSet_lastParam (s : State) (x : Nat) (v : Int) : (s.hostSet x v).lastParam = s.lastParam := rfl
@[simp] theorem hostSet_lastAck (s : State) (x : Nat) (v : Int) : (s.hostSet x v).lastAck = s.lastAck := rfl
@[simp] theorem hostSet_pollInterval (s : State) (x : Nat) (v : Int) : (s.hostSet x v).pollInterval = s.pollInterval := rfl
@[simp] theorem hostSet_maxPolls (s : State) (x : Nat) (v : Int) : (s.hostSet x v).maxPolls = s.maxPolls := rfl
@[simp] theorem hostSet_stallCount (s : State) (x : Nat) (v : Int) : (s.hostSet x v).stallCount = s.stallCount := rfl
@[simp] theorem hostSet_rxCount (s : State) (x : Nat) (v : Int) : (s.hostSet x v).rxCount = s.rxCount := rfl
@[simp] theorem hostSet_rxCsum (s : State) (x : Nat) (v : Int) : (s.hostSet x v).rxCsum = s.rxCsum := rfl
@[simp] theorem hostSet_txCsum (s : State) (x : Nat) (v : Int) : (s.hostSet x v).txCsum = s.txCsum := rfl
@[simp] theorem hostSet_intEn (s : State) (x : Nat) (v : Int) : (s.hostSet x v).intEn = s.intEn := rfl
@[simp] theorem hostSet_mem (s : State) (x : Nat) (v : Int) : (s.hostSet x v).mem = s.mem := rfl
@[simp] theorem hostSet_rxFifo (s : State) (x : Nat) (v : Int) : (s.hostSet x v).rxFifo = s.rxFifo := rfl
@[simp] theorem hostSet_txStream (s : State) (x : Nat) (v : Int) : (s.hostSet x v).txStream = s.txStream := rfl
@[simp] theorem hostSet_moduleWaiting (s : State) (x : Nat) (v : Int) : (s.hostSet x v).moduleWaiting = s.moduleWaiting := rfl
@[simp] theorem hostSet_platform (s : State) (x : Nat) (v : Int) : (s.hostSet x v).platform = s.platform := rfl
@[simp] theorem hostSet_host (s : State) (x : Nat) (v : Int) : (s.hostSet x v).host = { s.host with vars := setVar s.host.vars x v } := rfl
@[simp] theorem hostSet_driver (s : State) (x : Nat) (v : Int) : (s.hostSet x v).driver = s.driver := rfl
@[simp] theorem hostSet_inputs (s : State) (x : Nat) (v : Int) : (s.hostSet x v).inputs = s.inputs := rfl
@[simp] theorem hostSet_sched (s : State) (x : Nat) (v : Int) : (s.hostSet x v).sched = s.sched := rfl
@[simp] theorem hostSet_draws (s : State) (x : Nat) (v : Int) : (s.hostSet x v).draws = s.draws := rfl

/-! ### toPhase -/

@[simp] theorem toPhase_eng (s : State) (p : DriverPhase) : (s.toPhase p).eng = s.eng := rfl
@[simp] theorem toPhase_txIdx (s : State) (p : DriverPhase) : (s.toPhase p).txIdx = s.txIdx := rfl
@[simp] theorem toPhase_sleepLeft (s : State) (p : DriverPhase) : (s.toPhase p).sleepLeft = s.sleepLeft := rfl
@[simp] theorem toPhase_ctrl (s : State) (p : DriverPhase) : (s.toPhase p).ctrl = s.ctrl := rfl
@[simp] theorem toPhase_flags (s : State) (p : DriverPhase) : (s.toPhase p).flags = s.flags := rfl
@[simp] theorem toPhase_cmd (s : State) (p : DriverPhase) : (s.toPhase p).cmd = s.cmd := rfl
@[simp] theorem toPhase_param (s : State) (p : DriverPhase) : (s.toPhase p).param = s.param := rfl
@[simp] theorem toPhase_lastParam (s : State) (p : DriverPhase) : (s.toPhase p).lastParam = s.lastParam := rfl
@[simp] theorem toPhase_lastAck (s : State) (p : DriverPhase) : (s.toPhase p).lastAck = s.lastAck := rfl
@[simp] theorem toPhase_pollInterval (s : State) (p : DriverPhase) : (s.toPhase p).pollInterval = s.pollInterval := rfl
@[simp] theorem toPhase_maxPolls (s : State) (p : DriverPhase) : (s.toPhase p).maxPolls = s.maxPolls := rfl
@[simp] theorem toPhase_stallCount (s : State) (p : DriverPhase) : (s.toPhase p).stallCount = s.stallCount := rfl
@[simp] theorem toPhase_rxCount (s : State) (p : DriverPhase) : (s.toPhase p).rxCount = s.rxCount := rfl
@[simp] theorem toPhase_rxCsum (s : State) (p : DriverPhase) : (s.toPhase p).rxCsum = s.rxCsum := rfl
@[simp] theorem toPhase_txCsum (s : State) (p : DriverPhase) : (s.toPhase p).txCsum = s.txCsum := rfl
@[simp] theorem toPhase_intEn (s : State) (p : DriverPhase) : (s.toPhase p).intEn = s.intEn := rfl
@[simp] theorem toPhase_mem (s : State) (p : DriverPhase) : (s.toPhase p).mem = s.mem := rfl
@[simp] theorem toPhase_rxFifo (s : State) (p : DriverPhase) : (s.toPhase p).rxFifo = s.rxFifo := rfl
@[simp] theorem toPhase_txStream (s : State) (p : DriverPhase) : (s.toPhase p).txStream = s.txStream := rfl
@[simp] theorem toPhase_moduleWaiting (s : State) (p : DriverPhase) : (s.toPhase p).moduleWaiting = s.moduleWaiting := rfl
@[simp] theorem toPhase_platform (s : State) (p : DriverPhase) : (s.toPhase p).platform = s.platform := rfl
@[simp] theorem toPhase_host (s : State) (p : DriverPhase) : (s.toPhase p).host = s.host := rfl
@[simp] theorem toPhase_driver (s : State) (p : DriverPhase) : (s.toPhase p).driver = { s.driver with phase := p } := rfl
@[simp] theorem toPhase_inputs (s : State) (p : DriverPhase) : (s.toPhase p).inputs = s.inputs := rfl
@[simp] theorem toPhase_sched (s : State) (p : DriverPhase) : (s.toPhase p).sched = s.sched := rfl
@[simp] theorem toPhase_draws (s : State) (p : DriverPhase) : (s.toPhase p).draws = s.draws := rfl

/-! ### popEvent -/

@[simp] theorem popEvent_eng (s : State) : (s.popEvent).eng = s.eng := by
  unfold State.popEvent; split <;> (try split) <;> rfl
@[simp] theorem popEvent_txIdx (s : State) : (s.popEvent).txIdx = s.txIdx := by
  unfold State.popEvent; split <;> (try split) <;> rfl
@[simp] theorem popEvent_sleepLeft (s : State) : (s.popEvent).sleepLeft = s.sleepLeft := by
  unfold State.popEvent; split <;> (try split) <;> rfl
@[simp] theorem popEvent_ctrl (s : State) : (s.popEvent).ctrl = s.ctrl := by
  unfold State.popEvent; split <;> (try split) <;> rfl
@[simp] theorem popEvent_flags (s : State) : (s.popEvent).flags = s.flags := by
  unfold State.popEvent; split <;> (try split) <;> rfl
@[simp] theorem popEvent_cmd (s : State) : (s.popEvent).cmd = s.cmd := by
  unfold State.popEvent; split <;> (try split) <;> rfl
@[simp] theorem popEvent_param (s : State) : (s.popEvent).param = s.param := by
  unfold State.popEvent; split <;> (try split) <;> rfl
@[simp] theorem popEvent_lastParam (s : State) : (s.popEvent).lastParam = s.lastParam := by
  unfold State.popEvent; split <;> (try split) <;> rfl
@[simp] theorem popEvent_lastAck (s : State) : (s.popEvent).lastAck = s.lastAck := by
  unfold State.popEvent; split <;> (try split) <;> rfl
@[simp] theorem popEvent_pollInterval (s : State) : (s.popEvent).pollInterval = s.pollInterval := by
  unfold State.popEvent; split <;> (try split) <;> rfl
@[simp] theorem popEvent_maxPolls (s : State) : (s.popEvent).maxPolls = s.maxPolls := by
  unfold State.popEvent; split <;> (try split) <;> rfl
@[simp] theorem popEvent_stallCount (s : State) : (s.popEvent).stallCount = s.stallCount := by
  unfold State.popEvent; split <;> (try split) <;> rfl
@[simp] theorem popEvent_rxCount (s : State) : (s.popEvent).rxCount = s.rxCount := by
  unfold State.popEvent; split <;> (try split) <;> rfl
@[simp] theorem popEvent_rxCsum (s : State) : (s.popEvent).rxCsum = s.rxCsum := by
  unfold State.popEvent; split <;> (try split) <;> rfl
@[simp] theorem popEvent_txCsum (s : State) : (s.popEvent).txCsum = s.txCsum := by
  unfold State.popEvent; split <;> (try split) <;> rfl
@[simp] theorem popEvent_intEn (s : State) : (s.popEvent).intEn = s.intEn := by
  unfold State.popEvent; split <;> (try split) <;> rfl
@[simp] theorem popEvent_mem (s : State) : (s.popEvent).mem = s.mem := by
  unfold State.popEvent; split <;> (try split) <;> rfl
@[simp] theorem popEvent_rxFifo (s : State) : (s.popEvent).rxFifo = s.rxFifo := by
  unfold State.popEvent; split <;> (try split) <;> rfl
@[simp] theorem popEvent_txStream (s : State) : (s.popEvent).txStream = s.txStream := by
  unfold State.popEvent; split <;> (try split) <;> rfl
@[simp] theorem popEvent_moduleWaiting (s : State) : (s.popEvent).moduleWaiting = s.moduleWaiting := by
  unfold State.popEvent; split <;> (try split) <;> rfl
@[simp] theorem popEvent_platform (s : State) : (s.popEvent).platform = s.platform := by
  unfold State.popEvent; split <;> (try split) <;> rfl
@[simp] theorem popEvent_host (s : State) : (s.popEvent).host = s.host := by
  unfold State.popEvent; split <;> (try split) <;> rfl
@[simp] theorem popEvent_driver (s : State) : (s.popEvent).driver = s.driver := by
  unfold State.popEvent; split <;> (try split) <;> rfl
@[simp] theorem popEvent_draws (s : State) : (s.popEvent).draws = s.draws := by
  unfold State.popEvent; split <;> (try split) <;> rfl

/-! ### assertReset -/

@[simp] theorem assertReset_eng (s : State) : (s.assertReset).eng = State.reset.eng := rfl
@[simp] theorem assertReset_txIdx (s : State) : (s.assertReset).txIdx = State.reset.txIdx := rfl
@[simp] theorem assertReset_sleepLeft (s : State) : (s.assertReset).sleepLeft = State.reset.sleepLeft := rfl
@[simp] theorem assertReset_ctrl (s : State) : (s.assertReset).ctrl = State.reset.ctrl := rfl
@[simp] theorem assertReset_flags (s : State) : (s.assertReset).flags = State.reset.flags := rfl
@[simp] theorem assertReset_cmd (s : State) : (s.assertReset).cmd = State.reset.cmd := rfl
@[simp] theorem assertReset_param (s : State) : (s.assertReset).param = State.reset.param := rfl
@[simp] theorem assertReset_lastParam (s : State) : (s.assertReset).lastParam = State.reset.lastParam := rfl
@[simp] theorem assertReset_lastAck (s : State) : (s.assertReset).lastAck = State.reset.lastAck := rfl
@[simp] theorem assertReset_pollInterval (s : State) : (s.assertReset).pollInterval = State.reset.pollInterval := rfl
@[simp] theorem assertReset_maxPolls (s : State) : (s.assertReset).maxPolls = State.reset.maxPolls := rfl
@[simp] theorem assertReset_stallCount (s : State) : (s.assertReset).stallCount = State.reset.stallCount := rfl
@[simp] theorem assertReset_rxCount (s : State) : (s.assertReset).rxCount = State.reset.rxCount := rfl
@[simp] theorem assertReset_rxCsum (s : State) : (s.assertReset).rxCsum = State.reset.rxCsum := rfl
@[simp] theorem assertReset_txCsum (s : State) : (s.assertReset).txCsum = State.reset.txCsum := rfl
@[simp] theorem assertReset_intEn (s : State) : (s.assertReset).intEn = State.reset.intEn := rfl
@[simp] theorem assertReset_mem (s : State) : (s.assertReset).mem = State.reset.mem := rfl
@[simp] theorem assertReset_rxFifo (s : State) : (s.assertReset).rxFifo = s.rxFifo := rfl
@[simp] theorem assertReset_txStream (s : State) : (s.assertReset).txStream = s.txStream := rfl
@[simp] theorem assertReset_moduleWaiting (s : State) : (s.assertReset).moduleWaiting = s.moduleWaiting := rfl
@[simp] theorem assertReset_platform (s : State) : (s.assertReset).platform = s.platform := rfl
@[simp] theorem assertReset_host (s : State) : (s.assertReset).host = s.host := rfl
@[simp] theorem assertReset_driver (s : State) : (s.assertReset).driver = s.driver := rfl
@[simp] theorem assertReset_inputs (s : State) : (s.assertReset).inputs = s.inputs := rfl
@[simp] theorem assertReset_sched (s : State) : (s.assertReset).sched = s.sched := rfl
@[simp] theorem assertReset_draws (s : State) : (s.assertReset).draws = s.draws + 1 := rfl

/-! ### The fields whose new value depends on the case -/

@[simp] theorem raise_timeout_eng (s : State) :
    (s.raise .timeout).eng = timeoutEng s.ctrl.toFatal := rfl
@[simp] theorem timeoutEng_true : timeoutEng true = .halted := rfl
@[simp] theorem timeoutEng_false : timeoutEng false = .idle := rfl
@[simp] theorem raise_checksumMismatch_eng (s : State) : (s.raise .checksumMismatch).eng = .idle := rfl
@[simp] theorem raise_busyReject_eng (s : State) : (s.raise .busyReject).eng = s.eng := rfl

theorem storeRx_mem (s : State) (k : Nat) (b : Byte) : (s.storeRx k b).mem =
    if k < Config.dataPktLen then Memory.write s.mem (Config.rxBase + k) b else s.mem := by
  unfold State.storeRx; split <;> rfl

/-- The operations that encode a Command packet at launch (40_codec.md R96). -/
def encodes : BlockOp → Bool
  | .exchange => true
  | .sendCmd => true
  | .recvData => false
  | .recvCmd => false

theorem startOp_eng (s : State) : s.startOp.eng = if encodes s.ctrl.op then .send else .recv := by
  unfold State.startOp; split <;> simp [*, encodes]
theorem startOp_txIdx (s : State) : s.startOp.txIdx = if encodes s.ctrl.op then 0 else s.txIdx := by
  unfold State.startOp; split <;> simp [*, encodes]
theorem startOp_mem (s : State) : s.startOp.mem = if encodes s.ctrl.op then s.encodeTx.mem else s.mem := by
  unfold State.startOp; split <;> simp [*, encodes]
theorem startOp_txCsum (s : State) :
    s.startOp.txCsum = if encodes s.ctrl.op then s.encodeTx.txCsum else s.txCsum := by
  unfold State.startOp; split <;> simp [*, encodes]

end Sys2Proof.Machine
end

