-- ==== Sys2Proof/Laws/Memory.lean ====
section
/-!
SUPPORT. The laws of the buffers: what a read gives after a write, and that every operation keeps the canonical form.
-/
namespace Sys2Proof.Machine

@[simp] theorem Memory.read_nil (a : Nat) : Memory.read [] a = none := rfl

@[simp] theorem Memory.writeAll_nil (m : Memory) (a : Nat) : Memory.writeAll m a [] = m := rfl

@[simp] theorem Memory.writeAll_cons (m : Memory) (a : Nat) (b : Byte) (bs : List Byte) :
    Memory.writeAll m a (b :: bs) = Memory.writeAll (Memory.write m a b) (a + 1) bs := rfl

theorem Memory.wf_nil : Memory.wf [] := ⟨List.Pairwise.nil, fun _ h => nomatch h⟩

/-- A read after a write to the same offset gives the byte written. -/
@[simp] theorem Memory.read_write_same (m : Memory) (a : Nat) (b : Byte) :
    Memory.read (Memory.write m a b) a = some b := by
  induction m with
  | nil => simp [Memory.write, Memory.read]
  | cons c m ih =>
    simp only [Memory.write]
    split
    · simp [Memory.read]
    · split
      · simp [Memory.read]
      · rename_i h; simp [Memory.read, h, ih]

/-- A write leaves every other offset alone. -/
theorem Memory.read_write_other (m : Memory) {a k : Nat} (b : Byte) (h : k ≠ a) :
    Memory.read (Memory.write m a b) k = Memory.read m k := by
  induction m with
  | nil => simp [Memory.write, Memory.read, Ne.symm h]
  | cons c m ih =>
    simp only [Memory.write]
    split
    · simp [Memory.read, Ne.symm h]
    · split
      · rename_i hc; subst hc; simp [Memory.read, Ne.symm h]
      · simp [Memory.read, ih]

/-- A write of several bytes leaves every offset outside them alone. -/
theorem Memory.read_writeAll_outside (m : Memory) (a : Nat) (bs : List Byte) {k : Nat}
    (h : k < a ∨ a + bs.length ≤ k) : Memory.read (Memory.writeAll m a bs) k = Memory.read m k := by
  induction bs generalizing m a with
  | nil => rfl
  | cons b bs ih =>
    simp only [List.length_cons] at h
    rw [Memory.writeAll_cons, ih _ _ (by omega), Memory.read_write_other _ _ (by omega)]

/-- A read inside a write of several bytes gives the byte written there. -/
theorem Memory.read_writeAll_inside (m : Memory) (a : Nat) (bs : List Byte) (i : Nat) (h : i < bs.length) :
    Memory.read (Memory.writeAll m a bs) (a + i) = some (bs.getD i 0#8) := by
  induction bs generalizing m a i with
  | nil => simp at h
  | cons b bs ih =>
    cases i with
    | zero =>
      rw [Memory.writeAll_cons, Memory.read_writeAll_outside _ _ _ (by omega)]
      simp
    | succ i =>
      have hi : i < bs.length := by simpa using h
      have := ih (Memory.write m a b) (a + 1) i hi
      rw [Memory.writeAll_cons, show a + (i + 1) = a + 1 + i by omega, this]
      simp

theorem Memory.mem_write (m : Memory) (a : Nat) (b : Byte) {c : Host.Cell} (h : c ∈ Memory.write m a b) :
    c = (a, b) ∨ c ∈ m := by
  induction m with
  | nil => simpa [Memory.write] using h
  | cons d m ih =>
    simp only [Memory.write] at h
    split at h
    · simpa using h
    · split at h
      · rcases List.mem_cons.1 h with h | h
        · exact .inl h
        · exact .inr (List.mem_cons_of_mem _ h)
      · rcases List.mem_cons.1 h with h | h
        · exact .inr (by simp [h])
        · exact (ih h).imp_right (List.mem_cons_of_mem _)

theorem Memory.pairwise_write {m : Memory} (a : Nat) (b : Byte) (h : m.Pairwise (fun c d => c.1 < d.1)) :
    (Memory.write m a b).Pairwise (fun c d => c.1 < d.1) := by
  induction m with
  | nil => simp [Memory.write]
  | cons c m ih =>
    obtain ⟨hc, hm⟩ := List.pairwise_cons.1 h
    simp only [Memory.write]
    split
    · rename_i hlt
      refine List.pairwise_cons.2 ⟨fun d hd => ?_, h⟩
      rcases List.mem_cons.1 hd with rfl | hd
      · exact hlt
      · exact Nat.lt_trans hlt (hc d hd)
    · split
      · rename_i heq
        exact List.pairwise_cons.2 ⟨fun d hd => by simpa [heq] using hc d hd, hm⟩
      · rename_i hge hne
        refine List.pairwise_cons.2 ⟨fun d hd => ?_, ih hm⟩
        rcases Memory.mem_write m a b hd with rfl | hd
        · show c.1 < a
          omega
        · exact hc d hd

/-- A write of a buffer byte keeps the canonical form. -/
theorem Memory.wf_write {m : Memory} {a : Nat} (b : Byte) (h : Memory.wf m) (ha : isBuffer a = true) :
    Memory.wf (Memory.write m a b) := by
  refine ⟨Memory.pairwise_write a b h.1, fun c hc => ?_⟩
  rcases Memory.mem_write m a b hc with rfl | hc
  · exact ha
  · exact h.2 c hc

/-- A write of several buffer bytes keeps the canonical form. -/
theorem Memory.wf_writeAll {m : Memory} (a : Nat) (bs : List Byte) (h : Memory.wf m)
    (ha : ∀ i, i < bs.length → isBuffer (a + i) = true) : Memory.wf (Memory.writeAll m a bs) := by
  induction bs generalizing m a with
  | nil => exact h
  | cons b bs ih =>
    rw [Memory.writeAll_cons]
    refine ih (a + 1) (Memory.wf_write b h (by simpa using ha 0 (by simp))) (fun i hi => ?_)
    have := ha (i + 1) (by simpa using hi)
    rwa [show a + 1 + i = a + (i + 1) by omega]

@[simp] theorem bytesLE_length (v n : Nat) : (bytesLE v n).length = n := by
  induction n generalizing v with
  | zero => rfl
  | succ n ih => simp [bytesLE, ih]

@[simp] theorem commandBody_length (op : Word16) (p : Word32) : (commandBody op p).length = 10 := by
  simp [commandBody, Config.cmdMagic]

@[simp] theorem encodeCommand_length (op : Word16) (p : Word32) : (encodeCommand op p).length = 12 := by
  simp [encodeCommand]

theorem isBuffer_iff (a : Nat) :
    isBuffer a = true ↔ (0x100 ≤ a ∧ a < 0x10C) ∨ (0x200 ≤ a ∧ a < 0x3F8) := by
  simp only [isBuffer, Bool.or_eq_true, Bool.and_eq_true, decide_eq_true_eq]
  rfl

theorem isBuffer_tx {i : Nat} (h : i < 12) : isBuffer (Config.txBase + i) = true :=
  (isBuffer_iff _).2 (by unfold Config.txBase; omega)

theorem isBuffer_rx {i : Nat} (h : i < 504) : isBuffer (Config.rxBase + i) = true :=
  (isBuffer_iff _).2 (by unfold Config.rxBase; omega)

/-- The encode keeps the canonical form. -/
theorem encodeTx_wf {s : State} (h : Memory.wf s.mem) : Memory.wf s.encodeTx.mem := by
  rw [encodeTx_mem]
  exact Memory.wf_writeAll _ _ h (fun i hi => isBuffer_tx (by simpa using hi))

/-- Storing a received byte keeps the canonical form. -/
theorem storeRx_wf {s : State} (k : Nat) (b : Byte) (h : Memory.wf s.mem) : Memory.wf (s.storeRx k b).mem := by
  rw [storeRx_mem]
  split
  · rename_i hk; exact Memory.wf_write b h (isBuffer_rx (by simpa [Config.dataPktLen] using hk))
  · exact h

end Sys2Proof.Machine
end

