-- ==== Sys2Proof/Laws/Bus.lean ====
section
/-!
SUPPORT. What a bus access can do, said once (20_memory.md R50, R51, R56).
-/
namespace Sys2Proof.Machine

@[simp] theorem accessOk_reg (r : Reg) : accessOk (regOffset r) 4 = true := by cases r <;> decide

@[simp] theorem regAt_regOffset (r : Reg) : regAt (regOffset r) = some r := by cases r <;> decide

/-- A register's offset is the only offset of that register. -/
theorem regAt_eq_some {off : Nat} {r : Reg} (h : regAt off = some r) : off = regOffset r := by
  unfold regAt at h
  split at h <;> cases h <;> rfl

/-- A 32-bit write of a register is a register write under the lock rule, answered OKAY. -/
theorem wr_eq (s : State) (r : Reg) (v : Word32) : s.wr r v = (s.regWrite r v).answer .okay := by
  simp [State.wr, State.memWrite]

theorem regWrite_locked {s : State} {r : Reg} (v : Word32) (h : s.locked = true) (hr : lockable r = true) :
    s.regWrite r v = s.raise .busyReject := by
  simp [State.regWrite, h, hr]

theorem regWrite_unlocked {s : State} (r : Reg) (v : Word32) (h : s.locked = false) :
    s.regWrite r v = s.writeReg r v := by
  simp [State.regWrite, h]

theorem regWrite_unlockable (s : State) {r : Reg} (v : Word32) (hr : lockable r = false) :
    s.regWrite r v = s.writeReg r v := by
  simp [State.regWrite, hr]

/-- Everything a bus write can do: a register write answered OKAY, an ignored window write, or an ERROR. -/
theorem memWrite_cases (s : State) (off n : Nat) (v : Word32) :
    (∃ r, off = regOffset r ∧ n = 4 ∧ s.memWrite off n v = (s.regWrite r v).answer .okay) ∨
    (accessOk off n = true ∧ regAt off = none ∧ s.memWrite off n v = s.answer .okay) ∨
    (accessOk off n = false ∧ s.memWrite off n v = s.answer .error) := by
  cases ha : accessOk off n with
  | false => exact .inr (.inr ⟨rfl, by simp [State.memWrite, ha]⟩)
  | true =>
    cases hr : regAt off with
    | none => exact .inr (.inl ⟨rfl, rfl, by simp [State.memWrite, ha, hr]⟩)
    | some r =>
      have hoff := regAt_eq_some hr
      refine .inl ⟨r, hoff, ?_, by simp [State.memWrite, ha, hr]⟩
      have hreg : isRegister off = true := by subst hoff; cases r <;> decide
      simp [accessOk, hreg] at ha
      exact ha.2

/-- Everything a register write under the lock rule can do: refused with BUSYERR, or applied. -/
theorem regWrite_cases (s : State) (r : Reg) (v : Word32) :
    (s.locked = true ∧ lockable r = true ∧ s.regWrite r v = s.raise .busyReject) ∨
    ((s.locked = false ∨ lockable r = false) ∧ s.regWrite r v = s.writeReg r v) := by
  cases hl : s.locked <;> cases hr : lockable r <;> simp [State.regWrite, hl, hr]

@[simp] theorem locked_answer (s : State) (r : BusResponse) : (s.answer r).locked = s.locked := rfl

@[simp] theorem locked_raise_busyReject (s : State) : (s.raise .busyReject).locked = s.locked := rfl

theorem locked_iff (s : State) : s.locked = true ↔ s.eng ≠ .idle := by
  cases h : s.eng <;> simp [State.locked, State.busy, State.halted, h]

theorem locked_false_iff (s : State) : s.locked = false ↔ s.eng = .idle := by
  cases h : s.eng <;> simp [State.locked, State.busy, State.halted, h]

/-- Everything an accepted CTRL write can do: set the fields, and launch if START is 1. -/
theorem writeCtrl_cases (s : State) (v : Word32) :
    (ctrlStart v = true ∧ s.writeCtrl v = (s.setCtrl v).launch) ∨
    (ctrlStart v = false ∧ s.writeCtrl v = s.setCtrl v) := by
  cases h : ctrlStart v <;> simp [State.writeCtrl, h]

/-- Everything a launch can do: start a SEND phase with the packet encoded, or start a RECV phase. -/
theorem launch_cases (s : State) :
    ((s.ctrl.op = .exchange ∨ s.ctrl.op = .sendCmd) ∧ s.launch = s.clearForLaunch.startSend) ∨
    ((s.ctrl.op = .recvData ∨ s.ctrl.op = .recvCmd) ∧ s.launch = s.clearForLaunch.startRecv) := by
  cases h : s.ctrl.op <;> simp [State.launch, State.startOp, h]

/-- Everything a bus access at an address can do. -/
theorem busWrite_cases (s : State) (addr n : Nat) (v : Word32) :
    (∃ off, windowOffset s.platform.framerBase addr = some off ∧ s.busWrite addr n v = s.memWrite off n v) ∨
    (windowOffset s.platform.framerBase addr = none ∧ s.busWrite addr n v = s.answer .notSelected) := by
  cases h : windowOffset s.platform.framerBase addr <;> simp [State.busWrite, h]

/-- A bus read answers the host and changes nothing else. -/
theorem busRead_eq_answer (s : State) (addr n : Nat) : ∃ r, s.busRead addr n = s.answer r := by
  cases h : windowOffset s.platform.framerBase addr <;> simp only [State.busRead, h] <;> exact ⟨_, rfl⟩

end Sys2Proof.Machine
end

