-- ==== Sys2Proof/Laws/Link.lean ====
section
/-!
SUPPORT. What the Engine, the Timer and the Module can do in one step, said once (41_link_operations.md R104).
-/
namespace Sys2Proof.Machine

/-- Everything the end of a send can do (R111). -/
theorem endOfSend_cases (s : State) :
    (s.ctrl.op = .exchange ∧ s.endOfSend = { s with eng := .recv }) ∨
    (s.ctrl.op = .sendCmd ∧ s.endOfSend = s.finish) ∨
    ((s.ctrl.op = .recvData ∨ s.ctrl.op = .recvCmd) ∧ s.endOfSend = s) := by
  cases h : s.ctrl.op <;> simp [State.endOfSend, h]

/-- Everything a send step can do (R110, R111): a byte goes and more are left, the last byte goes, or none is left. -/
theorem sendByte_cases (s : State) :
    (s.txIdx + 1 < 12 ∧ s.sendByte = s.pushNext.nextDraw) ∨
    (s.txIdx + 1 = 12 ∧ s.sendByte = s.pushNext.endOfSend.nextDraw) ∨
    (12 ≤ s.txIdx ∧ s.sendByte = s) := by
  by_cases h : s.txIdx < 12
  · by_cases h12 : s.txIdx + 1 = 12
    · exact .inr (.inl ⟨h12, (if_pos h).trans (by rw [if_pos h12])⟩)
    · exact .inl ⟨by omega, (if_pos h).trans (by rw [if_neg h12])⟩
  · exact .inr (.inr ⟨by omega, if_neg h⟩)

/-- Everything a completion can do (R117, 40_codec.md R99). -/
theorem complete_cases (s : State) (p : List Byte) :
    (s.rejects p = true ∧ s.complete p = (s.recordCsum p).raise .checksumMismatch) ∨
    (s.rejects p = false ∧ p.length = 12 ∧ s.complete p = ((s.recordCsum p).decodeReply p).finish) ∨
    (s.rejects p = false ∧ p.length ≠ 12 ∧ s.complete p = (s.recordCsum p).finish) := by
  cases hr : s.rejects p with
  | true => simp [State.complete, hr]
  | false =>
    by_cases hl : p.length = 12 <;> simp [State.complete, State.accept, Config.cmdPktLen, hr, hl]

/-- Everything a poll that finds a byte can do (R113). -/
theorem receiveByte_cases (s : State) (b : Byte) (rest : List Byte) :
    ((s.takeByte b rest).packetComplete = true ∧
      s.receiveByte b rest = ((s.takeByte b rest).complete (s.takeByte b rest).collected).nextDraw) ∨
    ((s.takeByte b rest).packetComplete = false ∧ s.receiveByte b rest = (s.takeByte b rest).nextDraw) := by
  cases h : (s.takeByte b rest).packetComplete <;> simp [State.receiveByte, h]

/-- Everything a stall can do (R115). -/
theorem stall_cases (s : State) :
    (s.maxPolls.toNat ≤ (s.stallCount + 1#16).toNat ∧ s.stall = s.countStall.raise .timeout) ∨
    ((s.stallCount + 1#16).toNat < s.maxPolls.toNat ∧ s.stall = s.countStall.pollAgain) := by
  by_cases h : s.maxPolls.toNat ≤ (s.stallCount + 1#16).toNat
  · exact .inl ⟨h, if_pos (decide_eq_true h)⟩
  · exact .inr ⟨by omega, if_neg (by simpa [State.stalledOut] using h)⟩

/-- Everything a poll can do (R112 to R114). -/
theorem poll_cases (s : State) :
    (∃ b rest, s.rxFifo = b :: rest ∧ s.poll = s.receiveByte b rest) ∨
    (s.rxFifo = [] ∧ s.pollInterval = 0#16 ∧ s.poll = s.stall.nextDraw) ∨
    (s.rxFifo = [] ∧ s.pollInterval ≠ 0#16 ∧ s.poll = s.startSleep.nextDraw) := by
  cases hf : s.rxFifo with
  | cons b rest => exact .inl ⟨b, rest, rfl, by simp [State.poll, hf]⟩
  | nil => by_cases hp : s.pollInterval = 0#16 <;> simp [State.poll, State.emptyPoll, hf, hp]

/-- Everything an Engine step can do (R104). -/
theorem engineStep_cases (s : State) (accept : Bool) :
    (s.eng = .send ∧ accept = true ∧ s.engineStep accept = s.sendByte) ∨
    (s.eng = .recv ∧ s.engineStep accept = s.poll) ∨
    (s.eng ≠ .recv ∧ s.engineStep accept = s) := by
  cases h : s.eng <;> cases accept <;> simp [State.engineStep, h]

/-- Everything a Timer tick can do (R115). -/
theorem tick_cases (s : State) :
    (s.eng = .sleep ∧ s.sleepLeft - 1#16 = 0#16 ∧ s.tick = s.countTick.stall) ∨
    (s.eng = .sleep ∧ s.sleepLeft - 1#16 ≠ 0#16 ∧ s.tick = s.countTick) ∨
    (s.eng ≠ .sleep ∧ s.tick = s) := by
  by_cases h : s.eng = .sleep
  · by_cases hz : s.sleepLeft - 1#16 = 0#16 <;> simp [State.tick, h, hz]
  · simp [State.tick, h]

/-- Everything a Module byte can do: into the FIFO, held back, or dropped (92_eei_decisions.md D28). -/
theorem moduleByte_cases (s : State) (b : Byte) :
    (s.moduleWaiting = [] ∧ s.fifoHasRoom = true ∧ s.moduleByte b = (s.fifoAppend b).nextDraw) ∨
    (s.platform.moduleWaits = true ∧
      s.moduleByte b = { s with moduleWaiting := s.moduleWaiting ++ [b] }.nextDraw) ∨
    (s.platform.moduleWaits = false ∧ s.moduleByte b = s.nextDraw) := by
  unfold State.moduleByte
  split
  · rename_i h; simp at h; exact .inl ⟨h.1, h.2, rfl⟩
  · split
    · rename_i h; exact .inr (.inl ⟨h, rfl⟩)
    · rename_i h; exact .inr (.inr ⟨by simpa using h, rfl⟩)

/-- Everything a reset of the Transport can do: nothing while an operation is in progress (20_memory.md R65), else the RX
FIFO is drained. -/
theorem transportReset_cases (s : State) :
    (s.busy = true ∧ s.transportReset = s) ∨
    (s.busy = false ∧ s.transportReset = { s with rxFifo := [] }.nextDraw) := by
  cases h : s.busy <;> simp [State.transportReset, h]

/-- Everything a held-back byte can do. -/
theorem moduleResume_cases (s : State) :
    (∃ b rest, s.moduleWaiting = b :: rest ∧ s.fifoHasRoom = true ∧
      s.moduleResume = ({ s with moduleWaiting := rest }.fifoAppend b).nextDraw) ∨
    s.moduleResume = s := by
  cases hw : s.moduleWaiting with
  | nil => exact .inr (by simp [State.moduleResume, hw])
  | cons b rest =>
    cases hr : s.fifoHasRoom with
    | true => exact .inl ⟨b, rest, rfl, rfl, by simp [State.moduleResume, hw, hr]⟩
    | false => exact .inr (by simp [State.moduleResume, hw, hr])

end Sys2Proof.Machine
end

