-- ==== Sys2Proof/Laws/Step.lean ====
section
/-!
SUPPORT. What exec and step can do, said once.
-/
namespace Sys2Proof.Machine

/-- Running an instruction makes exactly the bus writes it is encoded as. -/
theorem exec_eq (i : Instr) (s : State) : exec i s = .next (s.perform (encode i)) := by
  cases i <;> rfl

/-! ### Which event is taken -/

/-- With no write pending no event waits. -/
theorem deferred_of_no_pending {s : State} (h : s.host.pending = []) : s.deferred = false := by
  simp [State.deferred, h]

/-- An event that makes no host access does not wait. -/
theorem deferred_of_no_access {s : State} {e : Event} {rest : List Event} (h : s.inputs = e :: rest)
    (ha : hostAccess e = false) : s.deferred = false := by
  simp [State.deferred, State.offered, h, ha]

/-- The step takes the first event of `inputs`, if it need not wait. -/
theorem step_cons {s : State} {e : Event} {rest : List Event} (h : s.inputs = e :: rest) (hd : s.deferred = false) :
    step s = stepEvent e { s with inputs := rest } := by
  simp [step, State.nextEvent, State.popEvent, State.offered, h, hd]

/-- A host access that comes while writes are pending waits: the oldest pending write is made, the access stays listed. -/
theorem step_waiting {s : State} {e : Event} {rest : List Event} (h : s.inputs = e :: rest) (ha : hostAccess e = true)
    (hp : s.host.pending ≠ []) : step s = .next s.hostWrite := by
  have hd : s.deferred = true := by simpa [State.deferred, State.offered, h, ha] using hp
  simp [step, State.nextEvent, State.popEvent, h, hd, stepEvent, eventInstr, State.agentStep]

/-- With no event listed and no write pending the step takes a free one. -/
theorem step_nil {s : State} (h : s.inputs = []) (hp : s.host.pending = []) :
    step s = stepEvent (Config.freeEvent s.sched) { s with sched := s.sched + 1 } := by
  simp [step, State.nextEvent, State.popEvent, State.offered, h, deferred_of_no_pending hp]

/-- An offered event that need not wait is the one that happens. -/
theorem step_offer {s : State} {e : Event} (hd : (s.offer e).deferred = false) :
    step (s.offer e) = stepEvent e { s with inputs := [] } := step_cons rfl hd

/-! ### What an event does -/

/-- Everything an event can do: run the instruction it issues, or its agent's own step. -/
theorem stepEvent_cases (e : Event) (s : State) :
    (∃ i, eventInstr e = some i ∧ stepEvent e s = .next (s.perform (encode i))) ∨
    (eventInstr e = none ∧ stepEvent e s = .next (s.agentStep e)) := by
  cases h : eventInstr e with
  | some i => exact .inl ⟨i, rfl, by simp [stepEvent, h, exec_eq]⟩
  | none => exact .inr ⟨rfl, by simp [stepEvent, h]⟩

/-- Everything a host action can do at once: one register write, and the writes still to come. -/
theorem perform_cases (s : State) (a : HostAction) :
    (∃ w, s.perform a = s.wr .ctrl w) ∨ (∃ c ws, s.perform a = (s.wr .cmd c).pend ws) := by
  cases a with
  | ctrl w => exact .inl ⟨w, rfl⟩
  | command opcode parameter launch => exact .inr ⟨_, _, rfl⟩

/-- Everything a pending write can do: none is pending, or the oldest is made. -/
theorem hostWrite_cases (s : State) :
    (s.host.pending = [] ∧ s.hostWrite = s) ∨
    (∃ w rest, s.host.pending = w :: rest ∧
      s.hostWrite = { s with host := { s.host with pending := rest } }.wr w.1 w.2) := by
  cases h : s.host.pending with
  | nil => exact .inl ⟨rfl, by simp [State.hostWrite, h]⟩
  | cons w rest => exact .inr ⟨w, rest, rfl, by simp [State.hostWrite, h]⟩

/-- Everything a line of a host program can do to the machine but for the Host agent's own fields: one register write,
or nothing. -/
theorem hostLine_cases (s : State) (line : HostLine) :
    (∃ r v, s.hostLine line = (s.wr r v).hostNext) ∨ ∃ h, s.hostLine line = { s with host := h } := by
  cases line with
  | wr r v => exact .inl ⟨r, v, rfl⟩
  | w1c mask => exact .inl ⟨.status, mask, rfl⟩
  | rd r x => right; simp only [State.hostLine, State.hostRead]; split <;> exact ⟨_, rfl⟩
  | rdb i x => right; simp only [State.hostLine, State.hostRead]; split <;> exact ⟨_, rfl⟩
  | rdw i x => right; simp only [State.hostLine, State.hostRead]; split <;> exact ⟨_, rfl⟩
  | waitIdle => right; simp only [State.hostLine]; split <;> exact ⟨_, rfl⟩
  | label l => exact .inr ⟨_, rfl⟩
  | ifGoto c l => right; simp only [State.hostLine]; split <;> exact ⟨_, rfl⟩
  | goto l => exact .inr ⟨_, rfl⟩
  | letVar x e => exact .inr ⟨_, rfl⟩
  | delay n => exact .inr ⟨_, rfl⟩

/-- Everything a turn of the host program can do to the machine but for the Host agent's own fields. -/
theorem hostTurn_cases (s : State) :
    (∃ r v, s.hostTurn = (s.wr r v).hostNext) ∨ ∃ h, s.hostTurn = { s with host := h } := by
  unfold State.hostTurn
  split
  · exact hostLine_cases s _
  · exact .inr ⟨s.host, rfl⟩

/-- Everything a turn of the reference driver can do to the machine but for the host's own fields: one register write,
or nothing. -/
theorem driverTurn_cases (s : State) :
    (∃ r v p, s.driverTurn = (s.wr r v).toPhase p) ∨ ∃ h d, s.driverTurn = { s with host := h, driver := d } := by
  unfold State.driverTurn
  split
  case h_4 => exact .inl ⟨_, _, _, rfl⟩
  case h_5 => exact .inl ⟨_, _, _, rfl⟩
  case h_6 => exact .inl ⟨_, _, _, rfl⟩
  case h_11 => exact .inl ⟨_, _, _, rfl⟩
  all_goals first
    | exact .inr ⟨s.host, s.driver, rfl⟩
    | exact .inr ⟨_, _, rfl⟩
    | (right; split <;> first | exact ⟨_, s.driver, rfl⟩ | exact ⟨_, _, rfl⟩)

/-- A task and a sink's answer change the driver alone. -/
theorem driverStart_cases (s : State) (t : Task) (q : Word32) (pol : Policy) :
    ∃ d, s.driverStart t q pol = { s with driver := d } := by
  unfold State.driverStart
  split
  · exact ⟨_, rfl⟩
  · exact ⟨s.driver, rfl⟩

theorem sinkAnswer_cases (s : State) (ok : Bool) : ∃ d, s.sinkAnswer ok = { s with driver := d } := by
  unfold State.sinkAnswer
  split <;> first | exact ⟨s.driver, rfl⟩ | exact ⟨_, rfl⟩

end Sys2Proof.Machine
end

