-- ==== Sys2Proof/Laws/PerInstr.lean ====
section
/-!
SUPPORT. What is proved of every instruction, one lemma a constructor: its encoding lies in its row of
spec/opcode_table.json (match and mask of the CTRL rows; opcode and, for LED_ON and LED_OFF, the parameter of the
CMD_PACKET rows).
-/
namespace Sys2Proof.Laws.TableRow
open Machine

/-- A CTRL word in the row whose bits 2:0 are `value`. -/
def ctrlRow (value : Nat) : HostAction → Prop
  | .ctrl w => w &&& 0x00000007#32 = BitVec.ofNat 32 value
  | .command _ _ _ => False

/-- A command in the row of `opcode`, whose parameter satisfies `p`. -/
def cmdRow (opcode : Nat) (p : Word32 → Prop) : HostAction → Prop
  | .ctrl _ => False
  | .command o prm l => o = BitVec.ofNat 16 opcode ∧ p prm ∧ (launchOf l).isSome = true ∧ ctrlStart l = true

/-- The instruction's encoding lies in its row of the table. -/
def Statement : Instr → Prop
  | .exchange pol => ctrlRow 1 (encode (.exchange pol))
  | .recvData pol => ctrlRow 3 (encode (.recvData pol))
  | .sendCmd pol => ctrlRow 5 (encode (.sendCmd pol))
  | .recvCmd pol => ctrlRow 7 (encode (.recvCmd pol))
  | .openCmd p l => cmdRow 0x01 (· = p) (encode (.openCmd p l))
  | .closeCmd p l => cmdRow 0x02 (· = p) (encode (.closeCmd p l))
  | .ledOn l => cmdRow 0x12 (· = 1#32) (encode (.ledOn l))
  | .ledOff l => cmdRow 0x12 (· = 0#32) (encode (.ledOff l))
  | .enrollStart p l => cmdRow 0x22 (· = p) (encode (.enrollStart p l))
  | .enroll1 p l => cmdRow 0x23 (· = p) (encode (.enroll1 p l))
  | .enroll2 p l => cmdRow 0x24 (· = p) (encode (.enroll2 p l))
  | .enroll3 p l => cmdRow 0x25 (· = p) (encode (.enroll3 p l))
  | .isPressFinger p l => cmdRow 0x26 (· = p) (encode (.isPressFinger p l))
  | .deleteId p l => cmdRow 0x40 (· = p) (encode (.deleteId p l))
  | .deleteAll p l => cmdRow 0x41 (· = p) (encode (.deleteAll p l))
  | .identify p l => cmdRow 0x51 (· = p) (encode (.identify p l))
  | .captureFinger p l => cmdRow 0x60 (· = p) (encode (.captureFinger p l))

theorem launch_ok (l : Launch) : (launchOf (launchWord l)).isSome = true ∧ ctrlStart (launchWord l) = true := by
  obtain ⟨so, v, t⟩ := l
  cases so <;> cases v <;> cases t <;> decide

theorem exchange (pol : Policy) : Statement (.exchange pol) := by
  obtain ⟨v, t⟩ := pol
  cases v <;> cases t <;> show _ = _ <;> decide

theorem recvData (pol : Policy) : Statement (.recvData pol) := by
  obtain ⟨v, t⟩ := pol
  cases v <;> cases t <;> show _ = _ <;> decide

theorem sendCmd (pol : Policy) : Statement (.sendCmd pol) := by
  obtain ⟨v, t⟩ := pol
  cases v <;> cases t <;> show _ = _ <;> decide

theorem recvCmd (pol : Policy) : Statement (.recvCmd pol) := by
  obtain ⟨v, t⟩ := pol
  cases v <;> cases t <;> show _ = _ <;> decide

theorem openCmd (p : Word32) (l : Launch) : Statement (.openCmd p l) := ⟨rfl, rfl, launch_ok l⟩

theorem closeCmd (p : Word32) (l : Launch) : Statement (.closeCmd p l) := ⟨rfl, rfl, launch_ok l⟩

theorem ledOn (l : Launch) : Statement (.ledOn l) := ⟨rfl, rfl, launch_ok l⟩

theorem ledOff (l : Launch) : Statement (.ledOff l) := ⟨rfl, rfl, launch_ok l⟩

theorem enrollStart (p : Word32) (l : Launch) : Statement (.enrollStart p l) := ⟨rfl, rfl, launch_ok l⟩

theorem enroll1 (p : Word32) (l : Launch) : Statement (.enroll1 p l) := ⟨rfl, rfl, launch_ok l⟩

theorem enroll2 (p : Word32) (l : Launch) : Statement (.enroll2 p l) := ⟨rfl, rfl, launch_ok l⟩

theorem enroll3 (p : Word32) (l : Launch) : Statement (.enroll3 p l) := ⟨rfl, rfl, launch_ok l⟩

theorem isPressFinger (p : Word32) (l : Launch) : Statement (.isPressFinger p l) := ⟨rfl, rfl, launch_ok l⟩

theorem deleteId (p : Word32) (l : Launch) : Statement (.deleteId p l) := ⟨rfl, rfl, launch_ok l⟩

theorem deleteAll (p : Word32) (l : Launch) : Statement (.deleteAll p l) := ⟨rfl, rfl, launch_ok l⟩

theorem identify (p : Word32) (l : Launch) : Statement (.identify p l) := ⟨rfl, rfl, launch_ok l⟩

theorem captureFinger (p : Word32) (l : Launch) : Statement (.captureFinger p l) := ⟨rfl, rfl, launch_ok l⟩

end Sys2Proof.Laws.TableRow
end

