-- ==== Sys2Proof/Tests/Slice0.lean ====
section
/-!
SUPPORT. Tests with expected results from spec/ (95_test_vectors.md, 30_encoding.md, 42_protocol_commands.md), and for
each obligation with hypotheses the concrete values that meet them.
-/
namespace Sys2Proof.Tests
open Machine

/-! ### Small states -/

/-- The next state. -/
def ran (s : State) : State :=
  match step s with
  | .next t => t
  | .fault _ => s
  | .refused _ => s

/-- `s` with the event `e` pending. -/
def withEvent (s : State) (e : Event) : State := { s with inputs := [e] }

/-- Policy bits 0. -/
def plain : Policy := { verify := false, toFatal := false }

/-- VERIFY = 1. -/
def verifying : Policy := { verify := true, toFatal := false }

/-- By EXCHANGE with policy bits 0. -/
def byExchange : Launch := { sendOnly := false, policy := plain }

/-- By SEND_CMD with policy bits 0. -/
def bySend : Launch := { sendOnly := true, policy := plain }

/-- From reset, the step that runs `i`, and the writes it leaves pending. -/
def issued (i : Instr) : State := (ran (withEvent State.reset (.issue (encode i)))).hostWrite.hostWrite

/-- From reset, the step that runs ENROLL_START with slot 5, its two further writes pending. -/
def started : State := ran (withEvent State.reset (.issue (encode (.enrollStart 5 byExchange))))

/-- Reset, but in Engine state `e` with operation `op`. -/
def inEng (e : Eng) (op : BlockOp) : State :=
  { State.reset with eng := e, ctrl := { State.reset.ctrl with op := op } }

/-- The ACK reply with parameter 0 (95 V5.2.1). -/
def ackReply : List Byte := [0x55, 0xAA, 0x01, 0x00, 0, 0, 0, 0, 0x30, 0x00, 0x30, 0x01]

/-- A reply whose checksum field is wrong (95 V2.4.2). -/
def badReply : List Byte := [0x55, 0xAA, 0x01, 0x00, 0, 0, 0, 0, 0x30, 0x00, 0x31, 0x01]

/-- RECV with eleven bytes of `p` collected and the twelfth in the RX FIFO. -/
def lastByte (verify : Bool) (p : List Byte) : State :=
  { State.reset with
    eng := .recv
    ctrl := { op := .recvCmd, verify := verify, toFatal := false }
    rxCount := 11#10
    mem := Memory.writeAll [] 0x200 (p.take 11)
    rxFifo := p.drop 11 }

/-- RECV of a Data packet with 503 zero bytes collected. -/
def lastDataByte : State :=
  { State.reset with
    eng := .recv
    ctrl := { op := .recvData, verify := false, toFatal := false }
    rxCount := 503#10
    rxFifo := [0x00] }

/-- HALTED after a fatal timeout. -/
def haltedState : State :=
  { State.reset with
    eng := .halted
    ctrl := { op := .recvCmd, verify := false, toFatal := true }
    flags := { State.reset.flags with timeout := true } }

/-! ### Well-formedness: each check refuses an ill-formed term (30_encoding.md R84, R85) -/

theorem test_wellFormed_accepts :
    Instr.wellFormed (.deleteId 199 byExchange) = true ∧ Instr.wellFormed (.enrollStart 0xFFFFFFFF byExchange) = true ∧
    Instr.wellFormed (.enrollStart 199 byExchange) = true ∧ Instr.wellFormed (.openCmd 0 byExchange) = true ∧
    Instr.wellFormed (.captureFinger 0xFFFFFFFF bySend) = true := by decide

theorem test_wellFormed_refuses_slot : Instr.wellFormed (.deleteId 200 byExchange) = false := by decide

theorem test_wellFormed_refuses_enroll_slot :
    Instr.wellFormed (.enrollStart 200 byExchange) = false ∧
    Instr.wellFormed (.enrollStart 0xFFFFFFFE byExchange) = false := by decide

theorem test_wellFormed_refuses_parameter :
    Instr.wellFormed (.openCmd 1 byExchange) = false ∧ Instr.wellFormed (.closeCmd 1 byExchange) = false ∧
    Instr.wellFormed (.enroll1 1 byExchange) = false ∧ Instr.wellFormed (.enroll2 1 byExchange) = false ∧
    Instr.wellFormed (.enroll3 1 byExchange) = false ∧ Instr.wellFormed (.isPressFinger 1 byExchange) = false ∧
    Instr.wellFormed (.deleteAll 1 byExchange) = false ∧ Instr.wellFormed (.identify 1 byExchange) = false := by decide

/-! ### Decoding: words written out from 30_encoding.md R79, R80 and R84 -/

theorem test_decode_exchange : decode .ctrl [0b00000001, 0, 0, 0] = .ok (.exchange plain) := by decide

theorem test_decode_recvData : decode .ctrl [0b00000011, 0, 0, 0] = .ok (.recvData plain) := by decide

theorem test_decode_sendCmd : decode .ctrl [0b00001101, 0, 0, 0] = .ok (.sendCmd verifying) := by decide

/-- Bits 31:5 are ignored (R81). -/
theorem test_decode_recvCmd :
    decode .ctrl [0b11110111, 0xFF, 0xFF, 0xFF] = .ok (.recvCmd { verify := false, toFatal := true }) := by decide

theorem test_decode_openCmd :
    decode .cmdPacket [0b00000001, 0, 0, 0, 0, 0, 0b00000001, 0, 0, 0] = .ok (.openCmd 0 byExchange) := by decide

theorem test_decode_closeCmd :
    decode .cmdPacket [0b00000010, 0, 0, 0, 0, 0, 0b00000101, 0, 0, 0] = .ok (.closeCmd 0 bySend) := by decide

theorem test_decode_ledOn :
    decode .cmdPacket [0b00010010, 0, 0b00000001, 0, 0, 0, 0b00000001, 0, 0, 0] = .ok (.ledOn byExchange) := by decide

theorem test_decode_ledOff :
    decode .cmdPacket [0b00010010, 0, 0, 0, 0, 0, 0b00000001, 0, 0, 0] = .ok (.ledOff byExchange) := by decide

theorem test_decode_enrollStart :
    decode .cmdPacket [0b00100010, 0, 0xFF, 0xFF, 0xFF, 0xFF, 0b00000001, 0, 0, 0]
      = .ok (.enrollStart 0xFFFFFFFF byExchange) := by decide

theorem test_decode_enroll1 :
    decode .cmdPacket [0b00100011, 0, 0, 0, 0, 0, 0b00000001, 0, 0, 0] = .ok (.enroll1 0 byExchange) := by decide

theorem test_decode_enroll2 :
    decode .cmdPacket [0b00100100, 0, 0, 0, 0, 0, 0b00000001, 0, 0, 0] = .ok (.enroll2 0 byExchange) := by decide

theorem test_decode_enroll3 :
    decode .cmdPacket [0b00100101, 0, 0, 0, 0, 0, 0b00000001, 0, 0, 0] = .ok (.enroll3 0 byExchange) := by decide

theorem test_decode_isPressFinger :
    decode .cmdPacket [0b00100110, 0, 0, 0, 0, 0, 0b00000001, 0, 0, 0] = .ok (.isPressFinger 0 byExchange) := by decide

theorem test_decode_deleteId :
    decode .cmdPacket [0b01000000, 0, 0b11000111, 0, 0, 0, 0b00000001, 0, 0, 0]
      = .ok (.deleteId 199 byExchange) := by decide

theorem test_decode_deleteAll :
    decode .cmdPacket [0b01000001, 0, 0, 0, 0, 0, 0b00000001, 0, 0, 0] = .ok (.deleteAll 0 byExchange) := by decide

theorem test_decode_identify :
    decode .cmdPacket [0b01010001, 0, 0, 0, 0, 0, 0b00000001, 0, 0, 0] = .ok (.identify 0 byExchange) := by decide

/-- A parameter's bytes are least significant first (20_memory.md R45). -/
theorem test_decode_captureFinger :
    decode .cmdPacket [0b01100000, 0, 0x78, 0x56, 0x34, 0x12, 0b00011001, 0, 0, 0]
      = .ok (.captureFinger 0x12345678 { sendOnly := false, policy := { verify := true, toFatal := true } }) := by
  decide

theorem test_decode_refuses :
    decode .ctrl [0b00011110, 0, 0, 0] = .error .notALaunch ∧
    decode .ctrl [1, 0, 0] = .error (.wrongLength 3) ∧ decode .cmdPacket [1] = .error (.wrongLength 1) ∧
    decode .cmdPacket [0x12, 0, 2, 0, 0, 0, 1, 0, 0, 0] = .error (.ledParameter 2) ∧
    decode .cmdPacket [0x01, 0, 0, 0, 0, 0, 3, 0, 0, 0] = .error .launchSendsNoCommand ∧
    decode .cmdPacket [0x01, 0x01, 0, 0, 0, 0, 1, 0, 0, 0] = .error (.unlistedOpcode 0x0101) := by decide

/-- The rows of spec/opcode_table.json by their own words; LED_ON's word, its parameter bits zero, is LED_OFF's. -/
theorem test_decodeTableWord :
    decodeTableWord 8 0x1 = some (.exchange plain) ∧ decodeTableWord 8 0x3 = some (.recvData plain) ∧
    decodeTableWord 8 0x5 = some (.sendCmd plain) ∧ decodeTableWord 8 0x7 = some (.recvCmd plain) ∧
    decodeTableWord 16 0x60 = some (.captureFinger 0 byExchange) ∧ decodeTableWord 16 0x12 = some (.ledOff byExchange) ∧
    decodeTableWord 48 0x10012 = some (.ledOn byExchange) ∧ decodeTableWord 24 0x60 = none := by decide

/-- The very next step runs the instruction placed. -/
theorem test_withFetchWord : step (State.reset.withFetchWord 16 0x0051) = exec (.identify 0 byExchange) State.reset := by
  rfl

/-! ### One step of each instruction, from reset -/

/-- 95 V3.2. -/
theorem test_exchange :
    (issued (.exchange plain)).statusWord = 0x01 ∧ (issued (.exchange plain)).txCsum = 0x0100 ∧
    (issued (.exchange plain)).txBytes = [0x55, 0xAA, 0x01, 0, 0, 0, 0, 0, 0, 0, 0, 0x01] := by decide

theorem test_recvData :
    (issued (.recvData plain)).eng = .recv ∧ (issued (.recvData plain)).txCsum = 0 ∧
    (issued (.recvData plain)).mem = [] := by decide

theorem test_sendCmd : (issued (.sendCmd verifying)).eng = .send ∧ (issued (.sendCmd verifying)).ctrl.verify = true := by
  decide

theorem test_recvCmd : (issued (.recvCmd plain)).statusWord = 0x01 ∧ (issued (.recvCmd plain)).eng = .recv := by decide

/-- 95 V5.1.1. -/
theorem test_openCmd :
    (issued (.openCmd 0 byExchange)).txBytes = [0x55, 0xAA, 0x01, 0, 0, 0, 0, 0, 0x01, 0, 0x01, 0x01] := by decide

/-- 95 V5.1.2. -/
theorem test_closeCmd :
    (issued (.closeCmd 0 byExchange)).txBytes = [0x55, 0xAA, 0x01, 0, 0, 0, 0, 0, 0x02, 0, 0x02, 0x01] := by decide

/-- 95 V5.1.3. -/
theorem test_ledOn :
    (issued (.ledOn bySend)).txBytes = [0x55, 0xAA, 0x01, 0, 0x01, 0, 0, 0, 0x12, 0, 0x13, 0x01] := by decide

/-- 95 V5.1.4. -/
theorem test_ledOff :
    (issued (.ledOff byExchange)).txBytes = [0x55, 0xAA, 0x01, 0, 0, 0, 0, 0, 0x12, 0, 0x12, 0x01] := by decide

/-- 95 V5.1.6. -/
theorem test_enrollStart :
    (issued (.enrollStart 0xFFFFFFFF byExchange)).txBytes
      = [0x55, 0xAA, 0x01, 0, 0xFF, 0xFF, 0xFF, 0xFF, 0x22, 0, 0x1E, 0x05] := by decide

/-- 95 V5.1.7. -/
theorem test_enroll1 :
    (issued (.enroll1 0 byExchange)).txBytes = [0x55, 0xAA, 0x01, 0, 0, 0, 0, 0, 0x23, 0, 0x23, 0x01] := by decide

/-- 95 V5.1.8. -/
theorem test_enroll2 :
    (issued (.enroll2 0 byExchange)).txBytes = [0x55, 0xAA, 0x01, 0, 0, 0, 0, 0, 0x24, 0, 0x24, 0x01] := by decide

/-- 95 V5.1.9. -/
theorem test_enroll3 :
    (issued (.enroll3 0 byExchange)).txBytes = [0x55, 0xAA, 0x01, 0, 0, 0, 0, 0, 0x25, 0, 0x25, 0x01] := by decide

/-- 95 V5.1.10. -/
theorem test_isPressFinger :
    (issued (.isPressFinger 0 byExchange)).txBytes = [0x55, 0xAA, 0x01, 0, 0, 0, 0, 0, 0x26, 0, 0x26, 0x01] := by decide

/-- 95 V5.1.12. -/
theorem test_deleteId :
    (issued (.deleteId 199 byExchange)).txBytes = [0x55, 0xAA, 0x01, 0, 0xC7, 0, 0, 0, 0x40, 0, 0x07, 0x02] := by decide

/-- 95 V5.1.13. -/
theorem test_deleteAll :
    (issued (.deleteAll 0 byExchange)).txBytes = [0x55, 0xAA, 0x01, 0, 0, 0, 0, 0, 0x41, 0, 0x41, 0x01] := by decide

/-- 95 V5.1.14. -/
theorem test_identify :
    (issued (.identify 0 byExchange)).txBytes = [0x55, 0xAA, 0x01, 0, 0, 0, 0, 0, 0x51, 0, 0x51, 0x01] := by decide

/-- 95 V5.1.16. -/
theorem test_captureFinger :
    (issued (.captureFinger 1 byExchange)).txBytes = [0x55, 0xAA, 0x01, 0, 0x01, 0, 0, 0, 0x60, 0, 0x61, 0x01] := by
  decide

/-- The first write of a command is CMD alone (42_protocol_commands.md R124, 20_memory.md R59). -/
theorem test_command_writes_cmd_first :
    started.cmd = 0x0022 ∧ started.param = 0 ∧ started.eng = .idle ∧ started.hostWrite.param = 5 ∧
    started.hostWrite.eng = .idle ∧ started.hostWrite.hostWrite.eng = .send := by decide

/-- A later host access waits for the pending writes; an Engine step does not. -/
theorem test_program_order :
    (withEvent started (.busRead 0x000 4)).nextEvent = .hostWrite ∧
    (withEvent started (.busRead 0x000 4)).popEvent.inputs = [.busRead 0x000 4] ∧
    (withEvent started (.engine true)).nextEvent = .engine true := by decide

/-! ### The Engine, the Timer and the bus -/

/-- 95 V2.4.1. -/
theorem test_receive_accepts :
    (ran (withEvent (lastByte true ackReply) (.engine false))).statusWord = 0x42 ∧
    (ran (withEvent (lastByte true ackReply) (.engine false))).rxCsum = 0x01300130 ∧
    (ran (withEvent (lastByte true ackReply) (.engine false))).lastAck = 0x0030 := by decide

/-- 95 V2.4.2. -/
theorem test_receive_rejects :
    (ran (withEvent (lastByte true badReply) (.engine false))).statusWord = 0x08 ∧
    (ran (withEvent (lastByte true badReply) (.engine false))).rxCsum = 0x01310130 ∧
    (ran (withEvent (lastByte true badReply) (.engine false))).lastAck = 0 := by decide

/-- 95 V2.4.3. -/
theorem test_receive_without_verify :
    (ran (withEvent (lastByte false badReply) (.engine false))).statusWord = 0x42 ∧
    (ran (withEvent (lastByte false badReply) (.engine false))).rxCsum = 0x01310130 := by decide

/-- 95 V3.7: MAX_POLLS = 0 behaves as 1. -/
theorem test_timeout_maxPolls_zero :
    (ran (withEvent { inEng .sleep .recvCmd with maxPolls := 0, sleepLeft := 1 } .tick)).statusWord = 0x04 ∧
    (ran (withEvent { inEng .sleep .recvCmd with maxPolls := 0, sleepLeft := 1 } .tick)).stallCount = 1 := by decide

/-- 95 V3.20: a write while busy is refused. -/
theorem test_busy_reject :
    (ran (withEvent (issued (.exchange plain)) (.busWrite 0x008 4 0x55))).statusWord = 0x11 ∧
    (ran (withEvent (issued (.exchange plain)) (.busWrite 0x008 4 0x55))).cmd = 0 := by decide

/-- 95 V3.21: a halted block refuses a launch. -/
theorem test_halted_refuses :
    (ran (withEvent haltedState (.busWrite 0x000 4 0x07))).statusWord = 0x34 ∧
    (ran (withEvent haltedState (.busWrite 0x004 4 0x14))).statusWord = 0x20 := by decide

/-- 95 V3.22: CTRL = 0x1E launches nothing. -/
theorem test_ctrl_without_start :
    (ran (withEvent State.reset (.busWrite 0x000 4 0x1E))).memRead 0x000 4 = .data 0x1E ∧
    (ran (withEvent State.reset (.busWrite 0x000 4 0x1E))).statusWord = 0 := by decide

/-- 95 V4.1 to V4.5. -/
theorem test_bus_errors :
    State.reset.memRead 0x038 4 = .error ∧ State.reset.memRead 0x002 4 = .error ∧
    State.reset.memRead 0x004 1 = .error ∧ State.reset.memRead 0x201 2 = .error ∧
    State.reset.memRead 0x3F8 4 = .data 0 := by decide

/-- 95 V6.2, V6.4 and V6.5. -/
theorem test_sequence_decisions :
    afterCall 0 (.enrollStep 3) (.reply 0x31 150) = .finish .duplicateFinger ∧
    afterCall 0 (.enrollStep 3) (.reply 0x31 5000) = .finish .enrollRetryable ∧
    afterCall 0 .identify (.reply 0x30 7) = .finish (.matched 7) ∧
    afterCall 0 .presence (.reply 0x30 0x1012) = .finish (.pressed false) := by decide

/-- LET stores and combines comparisons (30_encoding.md R89); IF jumps on a condition that holds. -/
theorem test_let_comparison :
    (State.reset.hostLine (.letVar 3 (.add (.lt (.lit (-1)) (.lit 0)) (.ne (.lit 2) (.lit 2))))).host.vars = [(3, 1)] ∧
    evalExpr [] (.ge (.lit 5) (.lit 5)) = 1 ∧ evalCond [] (.eq (.lit 0) (.lit 1)) = false := by decide

/-- A label that stands twice: the first line is taken. -/
theorem test_label_twice :
    ({ State.reset with host := { State.reset.host with program := [.delay 1, .label 4, .label 4] } }.hostLine
      (.goto 4)).host.pc = 1 := by decide

/-- The template's bytes are read from RX_BUF[4] on (43_host_sequences.md R144), here the first of them. -/
theorem test_template_byte :
    ({ lastDataByte with
        mem := [(0x204, 0xAB)]
        driver := { lastDataByte.driver with phase := .readTemplate [] } }.driverTurn).driver.phase
      = .readTemplate [0xAB] := by decide

/-- The platform's reset of the Transport drains the FIFO (70_reset_and_hazards.md R178). -/
theorem test_transport_reset :
    (ran (withEvent { State.reset with rxFifo := ackReply } .transportReset)).memRead 0x034 4 = .data 0 := by decide

/-- While an operation is in progress only the Engine uses the Transport (20_memory.md R65). -/
theorem test_transport_reset_while_busy :
    (ran (withEvent { inEng .recv .recvCmd with rxFifo := ackReply } .transportReset)).rxFifo = ackReply ∧
    (ran (withEvent { haltedState with rxFifo := ackReply } .transportReset)).rxFifo = [] := by decide

/-- Host integers are unbounded and signed: -1 and 6 is 6, -4 or 1 is -3. -/
theorem test_host_integers : intAnd (-1) 6 = 6 ∧ intOr (-4) 1 = -3 ∧ intAnd (-4) (-6) = -8 := by decide

/-! ### Witnesses: values that meet each obligation's hypotheses, at the boundaries of its clauses -/

theorem witness_DecodedActionMakesItsBusWrites :
    decodeAction (.ctrl 0xFFFFFFE1) = .ok (.exchange plain) ∧
    decodeAction (.command 0x0012 1 0xFFFFFFE0) = .ok (.ledOn byExchange) ∧
    decodeAction (.command 0x0060 0xFFFFFFFF 0x5) = .ok (.captureFinger 0xFFFFFFFF bySend) := by decide

theorem witness_EveryStartWordIsAnOperation :
    ((0x1#32).getLsbD 0 = true ∧ (0x1#32).getLsbD 2 = false ∧ (0x1#32).getLsbD 1 = false) ∧
    ((0x3#32).getLsbD 0 = true ∧ (0x3#32).getLsbD 2 = false ∧ (0x3#32).getLsbD 1 = true) ∧
    ((0x5#32).getLsbD 0 = true ∧ (0x5#32).getLsbD 2 = true ∧ (0x5#32).getLsbD 1 = false) ∧
    ((0xFFFFFFFF#32).getLsbD 0 = true ∧ (0xFFFFFFFF#32).getLsbD 2 = true ∧ (0xFFFFFFFF#32).getLsbD 1 = true) := by
  decide

/-- With no write pending, with two pending, and a pending write taken. -/
theorem witness_StepRunsDecodedInstruction :
    ((withEvent State.reset (.issue (.ctrl 0x1))).inputs = .issue (.ctrl 0x1) :: [] ∧
      decodeAction (.ctrl 0x1) = .ok (.exchange plain) ∧
      (withEvent State.reset (.issue (.ctrl 0x1))).host.pending = []) ∧
    ((withEvent started (.issue (.ctrl 0x1))).inputs = .issue (.ctrl 0x1) :: [] ∧
      (withEvent started (.issue (.ctrl 0x1))).host.pending ≠ []) ∧
    (withEvent started .hostWrite).inputs = .hostWrite :: [] ∧
    started.host.pending = (.param, 5) :: [(.ctrl, 1)] := by decide

theorem witness_BlockOperationsLaunch : State.reset.eng = .idle ∧ (inEng .send .exchange).eng ≠ .idle := by decide

theorem witness_SessionAndLedCommandsLaunch :
    { State.reset with rxFifo := ackReply }.eng = .idle ∧ { State.reset with rxFifo := ackReply }.host.pending = [] := ⟨rfl, rfl⟩

theorem witness_EnrollCommandsLaunch :
    { State.reset with lastAck := 0x0030 }.eng = .idle ∧ { State.reset with lastAck := 0x0030 }.host.pending = [] := ⟨rfl, rfl⟩

theorem witness_FingerAndDatabaseCommandsLaunch :
    { State.reset with lastParam := 0x1012 }.eng = .idle ∧ { State.reset with lastParam := 0x1012 }.host.pending = [] := ⟨rfl, rfl⟩

/-- One locked block in each of the four states. -/
theorem witness_LockedBlockRefusesInstructions :
    (inEng .send .exchange).eng ≠ .idle ∧ (inEng .recv .recvData).eng ≠ .idle ∧
    (inEng .sleep .recvCmd).eng ≠ .idle ∧ haltedState.eng ≠ .idle ∧ haltedState.host.pending = [] ∧
    (Instr.recvCmd plain).opcode = none := by decide

theorem witness_LockRefusesConfigurationWrites : (issued (.exchange plain)).eng ≠ .idle := by decide

theorem witness_ConfigurationWrites : { State.reset with cmd := 0x0001 }.eng = .idle := rfl

theorem witness_RegisterReads : 5 ≤ 5 ∧ 5 ≤ 31 := by decide

theorem witness_StatusBits : 7 ≤ 7 ∧ 7 ≤ 31 := by decide

theorem witness_LaunchEncodesThePacket :
    State.reset.eng = .idle ∧ State.reset.host.pending = [] ∧
    (∃ t, exec (.openCmd 0 byExchange) State.reset = .next t ∧ (Instr.openCmd 0 byExchange).sends = true) ∧
    (∃ t, exec (.recvCmd plain) State.reset = .next t ∧ (Instr.recvCmd plain).sends = false) :=
  ⟨rfl, rfl, ⟨_, rfl, rfl⟩, ⟨_, rfl, rfl⟩⟩

theorem witness_InstructionFrame :
    (∃ t, exec (.exchange plain) State.reset = .next t ∧ State.reset.host.pending = [] ∧ State.reset.eng = .idle ∧
      (Instr.exchange plain).opcode = none) ∧
    (∃ t, exec (.identify 0 byExchange) haltedState = .next t ∧ haltedState.eng ≠ .idle ∧
      haltedState.host.pending = [] ∧ (Instr.identify 0 byExchange).opcode ≠ none) ∧
    (∃ t, exec (.recvData plain) State.reset = .next t ∧ (Instr.recvData plain).sends = false) :=
  ⟨⟨_, rfl, rfl, rfl, rfl⟩, ⟨_, rfl, by decide, rfl, by decide⟩, ⟨_, rfl, rfl⟩⟩

theorem witness_CtrlWriteWithoutStart :
    State.reset.eng = .idle ∧ (0x1E#32).getLsbD 0 = false ∧
    (∀ k, k < 5 → (0xFFFFFFFE#32).getLsbD k = (0x1E#32).getLsbD k) := by decide

theorem witness_AnyOpcodeAndParameterIsCarried :
    State.reset.eng = .idle ∧ State.reset.host.pending = [] ∧
    (withEvent State.reset (.issue (.command 0xFFFF 0xFFFFFFFF (ctrlWord true .exchange plain)))).inputs
      = .issue (.command 0xFFFF 0xFFFFFFFF (ctrlWord true .exchange plain)) :: [] := by decide

/-- 95 V2.1.7 and V2.1.8 for the order; a corrupted byte; two corruptions that cancel. -/
theorem witness_ChecksumDetectsSingleByteCorruption :
    ([0x01, 0x02, 0x03, 0x80] : List Byte).Perm [0x80, 0x03, 0x02, 0x01] ∧
    (3 < ([0x01, 0x02, 0x03, 0x80] : List Byte).length ∧
      (0x7F : Byte) ≠ packetByte [0x01, 0x02, 0x03, 0x80] 3) ∧
    (0x01 : Byte).toNat + (0xFF : Byte).toNat = (0x02 : Byte).toNat + (0xFE : Byte).toNat := by decide

theorem witness_ChecksumRanges :
    (List.replicate 10 (0xFF : Byte)).length = 10 ∧ (List.replicate 502 (0xFF : Byte)).length = 502 :=
  ⟨List.length_replicate, List.length_replicate⟩

theorem witness_SendByteSteps :
    ((inEng .send .exchange).eng = .send ∧ (inEng .send .exchange).txIdx < 11) ∧
    ({ inEng .send .exchange with txIdx := 10 }.eng = .send ∧ { inEng .send .exchange with txIdx := 10 }.txIdx < 11) ∧
    ({ inEng .send .exchange with txIdx := 11 }.eng = .send ∧ { inEng .send .exchange with txIdx := 11 }.txIdx = 11 ∧
      { inEng .send .exchange with txIdx := 11 }.ctrl.op = .exchange) ∧
    ({ inEng .send .sendCmd with txIdx := 11 }.eng = .send ∧ { inEng .send .sendCmd with txIdx := 11 }.txIdx = 11 ∧
      { inEng .send .sendCmd with txIdx := 11 }.ctrl.op = .sendCmd) := by decide

/-- RECV_CMD with an empty FIFO, POLL_INTERVAL 0 and MAX_POLLS 1: the Engine's step times out. -/
def timingOut (toFatal : Bool) : State :=
  { withEvent (inEng .recv .recvCmd) (.engine true) with
    ctrl := { op := .recvCmd, verify := false, toFatal := toFatal }
    pollInterval := 0
    maxPolls := 1 }

theorem witness_timingOut (f : Bool) : Inv (timingOut f) := by
  refine ⟨⟨List.Pairwise.nil, fun _ h => nomatch h⟩, Nat.zero_le _, (fun h => nomatch h),
    fun _ => ⟨12, rfl, (by decide : 0 < 12), (by decide : 0 < max 1 1)⟩, (fun h => nomatch h), (fun _ h => nomatch h),
    (fun h => nomatch h), rfl, fun _ => rfl, Nat.zero_le _,
    fun _ h => absurd h (Nat.not_lt_zero _), ?_, ?_, fun _ => rfl⟩
  · intro _ _ h; exact nomatch h
  · intro _ h; exact nomatch h

/-- The run from `s` in which the environment offers `es`. -/
def offeredRun (es : Nat → Event) (s : State) : Nat → State
  | 0 => s
  | n + 1 => ran ((offeredRun es s n).offer (es n))

theorem step_ran (s : State) : step s = .next (ran s) := by
  unfold ran
  rcases stepEvent_cases s.nextEvent s.popEvent with ⟨_, _, h⟩ | ⟨_, h⟩ <;> rw [step, h]

theorem isRun_offeredRun (es : Nat → Event) (s : State) : IsRun es (offeredRun es s) := fun _ => step_ran _

/-- A tick and a step of the Engine, its byte accepted, in turn. -/
def alternating (n : Nat) : Event := if n % 2 = 0 then .tick else .engine true

/-- The four Engine states; a fair run from a state that meets the invariant; and a run of ticks alone from SEND. -/
theorem witness_EngineHoldsAndFairRunsMoveOn :
    ((inEng .send .exchange).eng = .send ∧ State.reset.eng = .idle ∧ (inEng .sleep .recvCmd).eng = .sleep ∧
      haltedState.eng = .halted) ∧
    (FairRun alternating (offeredRun alternating (timingOut true)) ∧
      Inv (offeredRun alternating (timingOut true) 0)) ∧
    (IsRun (fun _ => .tick) (offeredRun (fun _ => .tick) (inEng .send .exchange)) ∧
      (offeredRun (fun _ => .tick) (inEng .send .exchange) 0).eng = .send ∧
      ∀ m, 0 ≤ m → (fun _ : Nat => Event.tick) m ≠ .engine true ∧ (fun _ : Nat => Event.tick) m ≠ .reset) := by
  refine ⟨by decide, ⟨⟨isRun_offeredRun _ _, fun n => ⟨2 * n, by omega, ?_⟩, fun n _ => ⟨2 * n + 1, by omega, ?_⟩⟩,
    (witness_timingOut true)⟩, isRun_offeredRun _ _, rfl, fun _ _ => ⟨nofun, nofun⟩⟩
  · have h : 2 * n % 2 = 0 := by omega
    simp [alternating, h]
  · have h : (2 * n + 1) % 2 ≠ 0 := by omega
    simp [alternating]

/-- The first byte of a reply, and byte 502 of a Data packet. -/
theorem witness_PollTakesOneByte :
    ({ inEng .recv .recvCmd with rxFifo := [0x55] }.eng = .recv ∧
      { inEng .recv .recvCmd with rxFifo := [0x55] }.rxFifo = 0x55 :: [] ∧
      { inEng .recv .recvCmd with rxFifo := [0x55] }.rxCount.toNat < 503 ∧
      rxLen { inEng .recv .recvCmd with rxFifo := [0x55] }.ctrl.op
        ≠ some ({ inEng .recv .recvCmd with rxFifo := [0x55] }.rxCount.toNat + 1)) ∧
    ({ lastDataByte with rxCount := 502#10 }.eng = .recv ∧
      { lastDataByte with rxCount := 502#10 }.rxFifo = 0x00 :: [] ∧
      { lastDataByte with rxCount := 502#10 }.rxCount.toNat < 503 ∧
      rxLen { lastDataByte with rxCount := 502#10 }.ctrl.op
        ≠ some ({ lastDataByte with rxCount := 502#10 }.rxCount.toNat + 1)) := by decide

/-- A rejected reply, an accepted one, and an accepted Data packet. -/
theorem witness_ReceiveCompletes :
    ((lastByte true badReply).eng = .recv ∧ (lastByte true badReply).rxFifo = 0x01 :: [] ∧
      rxLen (lastByte true badReply).ctrl.op = some ((lastByte true badReply).rxCount.toNat + 1) ∧
      (lastByte true badReply).ctrl.verify = true ∧
      packetSum ((lastByte true badReply).collected ++ [0x01])
        ≠ packetChecksum ((lastByte true badReply).collected ++ [0x01])) ∧
    ((lastByte true ackReply).eng = .recv ∧ (lastByte true ackReply).rxFifo = 0x01 :: [] ∧
      rxLen (lastByte true ackReply).ctrl.op = some ((lastByte true ackReply).rxCount.toNat + 1) ∧
      packetSum ((lastByte true ackReply).collected ++ [0x01])
        = packetChecksum ((lastByte true ackReply).collected ++ [0x01]) ∧
      (lastByte true ackReply).rxCount.toNat + 1 = 12) ∧
    (lastDataByte.eng = .recv ∧ lastDataByte.rxFifo = 0x00 :: [] ∧
      rxLen lastDataByte.ctrl.op = some (lastDataByte.rxCount.toNat + 1) ∧ lastDataByte.ctrl.verify = false ∧
      lastDataByte.rxCount.toNat + 1 = 504) := by decide

theorem witness_EmptyPollSleepsOrStalls :
    ((inEng .recv .recvCmd).eng = .recv ∧ (inEng .recv .recvCmd).rxFifo = [] ∧
      (inEng .recv .recvCmd).pollInterval ≠ 0#16) ∧
    ({ inEng .recv .recvCmd with pollInterval := 0 }.eng = .recv ∧
      { inEng .recv .recvCmd with pollInterval := 0 }.rxFifo = [] ∧
      { inEng .recv .recvCmd with pollInterval := 0 }.pollInterval = 0#16) := by decide

theorem witness_TickAndStall :
    State.reset.eng ≠ .sleep ∧
    ({ inEng .sleep .recvCmd with sleepLeft := 2 }.eng = .sleep ∧
      { inEng .sleep .recvCmd with sleepLeft := 2 }.sleepLeft ≠ 1#16) ∧
    ({ inEng .sleep .recvCmd with sleepLeft := 1 }.eng = .sleep ∧
      { inEng .sleep .recvCmd with sleepLeft := 1 }.sleepLeft = 1#16) ∧
    { State.reset with stallCount := 299 }.maxPolls.toNat
      ≤ ({ State.reset with stallCount := 299 }.stallCount + 1#16).toNat ∧
    ({ State.reset with stallCount := 298 }.stallCount + 1#16).toNat
      < { State.reset with stallCount := 298 }.maxPolls.toNat ∧
    { State.reset with maxPolls := 0 }.maxPolls = 0#16 ∧
    ((lastByte true ackReply).eng = .recv ∧ (lastByte true ackReply).rxFifo ≠ []) := by decide

/-- MAX_POLLS = 2 and POLL_INTERVAL = 1, and the smallest case, MAX_POLLS = 0 and POLL_INTERVAL = 0. -/
theorem witness_SilentReceiveTimesOutExactly :
    (∃ s : State, s.eng = .recv ∧ s.rxFifo = [] ∧ s.stallCount = 0#16 ∧
      s.inputs = (List.replicate (max s.maxPolls.toNat 1)
        (.engine true :: List.replicate s.pollInterval.toNat .tick)).flatten ++ []) ∧
    (∃ s : State, s.eng = .recv ∧ s.rxFifo = [] ∧ s.stallCount = 0#16 ∧ s.maxPolls = 0#16 ∧
      s.inputs = (List.replicate (max s.maxPolls.toNat 1)
        (.engine true :: List.replicate s.pollInterval.toNat .tick)).flatten ++ []) :=
  ⟨⟨{ inEng .recv .recvCmd with
        maxPolls := 2, pollInterval := 1, inputs := [.engine true, .tick, .engine true, .tick] },
      by decide, by decide, by decide, by decide⟩,
    ⟨{ inEng .recv .recvCmd with maxPolls := 0, pollInterval := 0, inputs := [.engine true] },
      by decide, by decide, by decide, by decide, by decide⟩⟩

theorem witness_ExchangeRunsToItsEnd :
    ∃ s : State, s.eng = .idle ∧ s.host.pending = [] ∧ s.rxFifo = [] ∧ s.moduleWaiting = [] ∧
      (∀ d, s.platform.rxFifoDepth = some d → 12 ≤ d) ∧ ackReply.length = 12 ∧
      s.inputs = .issue (encode (.exchange verifying)) :: (List.replicate 12 (.engine true) ++
        ackReply.map .moduleByte ++ List.replicate 12 (.engine true) ++ []) ∧ passes true ackReply :=
  ⟨{ State.reset with
      inputs := .issue (encode (.exchange verifying)) :: (List.replicate 12 (.engine true) ++
        ackReply.map .moduleByte ++ List.replicate 12 (.engine true) ++ []) },
    rfl, rfl, rfl, rfl, (fun _ h => nomatch h), rfl, rfl, .inr (by decide)⟩

theorem witness_passes_fails : ¬ passes true badReply := by
  unfold passes
  decide

theorem witness_SendCmdRunsToItsEnd :
    ∃ s : State, s.eng = .idle ∧ s.host.pending = [] ∧
      s.inputs = .issue (encode (.sendCmd plain)) :: (List.replicate 12 (.engine true) ++ []) :=
  ⟨{ State.reset with inputs := .issue (encode (.sendCmd plain)) :: (List.replicate 12 (.engine true) ++ []) },
    rfl, rfl, rfl⟩

/-- RECV_CMD with two bytes left over, and RECV_DATA. -/
theorem witness_ReceiveRunsToItsEnd :
    (∃ s : State, s.eng = .idle ∧ s.host.pending = [] ∧ s.rxFifo = ackReply ++ [0xDE, 0xAD] ∧
      ackReply.length = (if false then 504 else 12) ∧
      s.inputs = .issue (encode (if false then .recvData plain else .recvCmd plain)) ::
        (List.replicate ackReply.length (.engine true) ++ []) ∧ passes plain.verify ackReply) ∧
    (∃ (s : State) (p : List Byte), s.eng = .idle ∧ s.host.pending = [] ∧ s.rxFifo = p ++ [] ∧
      p.length = (if true then 504 else 12) ∧
      s.inputs = .issue (encode (if true then .recvData plain else .recvCmd plain)) ::
        (List.replicate p.length (.engine true) ++ []) ∧ passes plain.verify p) :=
  ⟨⟨{ State.reset with
        rxFifo := ackReply ++ [0xDE, 0xAD],
        inputs := .issue (encode (.recvCmd plain)) :: (List.replicate ackReply.length (.engine true) ++ []) },
      rfl, rfl, rfl, rfl, rfl, .inl rfl⟩,
    ⟨{ State.reset with
        rxFifo := List.replicate 504 0 ++ [],
        inputs := .issue (encode (.recvData plain)) ::
          (List.replicate (List.replicate 504 (0 : Byte)).length (.engine true) ++ []) },
      List.replicate 504 0, rfl, rfl, rfl, List.length_replicate, rfl, .inl rfl⟩⟩

/-- An operation that ends, from a state that meets the invariant; a step that leaves a halted block halted, and reset;
a position at the end of a program. -/
theorem witness_OperationsEndAndOnlyResetLeavesHalted :
    (∀ f : Bool, Inv (timingOut f) ∧ (timingOut f).busy = true ∧ (timingOut f).nextEvent ≠ .reset ∧
      ∃ t, step (timingOut f) = .next t ∧ t.busy = false) ∧
    (∃ t, step (withEvent haltedState .tick) = .next t ∧ (withEvent haltedState .tick).eng = .halted) ∧
    (∃ t, step (withEvent haltedState .reset) = .next t ∧ (withEvent haltedState .reset).eng = .halted) ∧
    State.reset.host.program.length ≤ State.reset.host.pc := by
  refine ⟨fun f => ⟨witness_timingOut f, rfl, (fun h => nomatch h), ?_⟩, ⟨_, rfl, rfl⟩, ⟨_, rfl, rfl⟩, Nat.le_refl _⟩
  cases f <;> exact ⟨_, rfl, rfl⟩

/-- An empty program has ended at once; a run with a line left, or with an operation in flight, is not finished. -/
theorem test_run_finished :
    State.reset.runFinished = true ∧ (issued (.recvCmd plain)).runFinished = false ∧ started.runFinished = false ∧
    { State.reset with host := { State.reset.host with program := [.delay 1] } }.runFinished = false := by decide

/-- A fatal timeout ends its operation in HALTED, another in IDLE (70_reset_and_hazards.md R175). -/
theorem test_operation_ended :
    (ran (timingOut true)).operationEnded = true ∧ (ran (timingOut true)).halted = true ∧
    (ran (timingOut false)).operationEnded = true ∧ (ran (timingOut false)).eng = .idle ∧
    (timingOut false).operationEnded = false := by decide

theorem witness_LockedInputsStayConstant :
    ∃ t, (withEvent haltedState (.busWrite 0x008 4 1)).eng ≠ .idle ∧
      (withEvent haltedState (.busWrite 0x008 4 1)).nextEvent ≠ .reset ∧
      step (withEvent haltedState (.busWrite 0x008 4 1)) = .next t :=
  ⟨_, by decide, by decide, rfl⟩

theorem witness_ReplyChangesOnlyAtDecode :
    ∃ t, (withEvent (lastByte true ackReply) (.engine true)).nextEvent ≠ .reset ∧
      step (withEvent (lastByte true ackReply) (.engine true)) = .next t ∧
      ¬ sameReply (withEvent (lastByte true ackReply) (.engine true)) t :=
  ⟨ran (withEvent (lastByte true ackReply) (.engine true)), by decide, rfl, fun h => absurd h.2 (by decide)⟩

/-- EXCHANGE after the twelfth byte, a reply byte in the FIFO, the Engine to step. -/
def exchangeReceiving : State :=
  { withEvent (inEng .recv .exchange) (.engine true) with txIdx := 12, rxFifo := [0x55] }

/-- A byte taken, in EXCHANGE in a state that meets the invariant, and a reset of the Transport, of a busy block and of an
idle one. -/
theorem witness_OnlyReceivePopsTheFifo :
    (∃ t, step exchangeReceiving = .next t ∧ t.rxFifo = [] ∧ exchangeReceiving.ctrl.op = .exchange) ∧
    Inv exchangeReceiving ∧
    (∃ t, step (withEvent exchangeReceiving .transportReset) = .next t ∧
      (withEvent exchangeReceiving .transportReset).nextEvent = .transportReset ∧
      (withEvent exchangeReceiving .transportReset).busy = true) ∧
    (∃ t, step (withEvent State.reset .transportReset) = .next t ∧
      (withEvent State.reset .transportReset).nextEvent = .transportReset ∧
      (withEvent State.reset .transportReset).busy = false) := by
  refine ⟨⟨_, rfl, rfl, rfl⟩, ⟨⟨List.Pairwise.nil, fun _ h => nomatch h⟩, by decide, fun h => absurd h (by decide),
    fun _ => ⟨12, by decide, by decide, by decide⟩, fun h => absurd h (by decide), fun _ _ => rfl,
    fun h => absurd h (by decide), by decide, fun _ => by decide, by decide,
    fun _ h => absurd h (Nat.not_lt_zero _), ?_, ?_, fun _ => rfl⟩, ⟨_, rfl, rfl, rfl⟩, ⟨_, rfl, rfl, rfl⟩⟩
  · intro _ _ h; exact nomatch h
  · intro _ h; exact nomatch h

/-- A byte sent. -/
theorem witness_OnlySendPushesTheStream :
    ∃ t, step (withEvent (issued (.exchange plain)) (.engine true)) = .next t ∧ t.txStream.length = 1 :=
  ⟨_, rfl, rfl⟩

theorem witness_StepKeepsInvariant :
    Inv (withEvent State.reset (.issue (.ctrl 0x1))) ∧
    ∃ t, step (withEvent State.reset (.issue (.ctrl 0x1))) = .next t := by
  refine ⟨⟨⟨List.Pairwise.nil, fun _ h => nomatch h⟩, by decide, fun h => absurd h (by decide),
    fun h => absurd h (by decide), fun h => absurd h (by decide), fun h => absurd h (by decide),
    fun h => absurd h (by decide), by decide, fun h => absurd h (by decide), by decide,
    fun _ h => absurd h (Nat.not_lt_zero _), ?_, ?_, fun _ => rfl⟩, _, rfl⟩
  · intro _ _ h; exact nomatch h
  · intro _ h; exact nomatch h

/-- The first and last byte of each window at each width, and misaligned ones. -/
theorem witness_WindowReads :
    (511 < 512) ∧ (510 < 512 ∧ 510 % 2 = 0) ∧ (508 < 512 ∧ 508 % 4 = 0) ∧ (15 < 16) ∧ (14 < 16 ∧ 14 % 2 = 0) ∧
    (12 < 16 ∧ 12 % 4 = 0) ∧ 1 % 2 ≠ 0 ∧ 2 % 4 ≠ 0 := by decide

/-- The boundaries of every clause: unmapped holes, alignment, register width, size. -/
theorem witness_ErrorResponses :
    (0x038 < 0x1000 ∧ 0x038 ≤ 0x038 ∧ 0x038 < 0x100) ∧ (0x0FF < 0x1000 ∧ 0x038 ≤ 0x0FF ∧ 0x0FF < 0x100) ∧
    (0x110 < 0x1000 ∧ 0x110 ≤ 0x110 ∧ 0x110 < 0x200) ∧ (0x1FF < 0x1000 ∧ 0x110 ≤ 0x1FF ∧ 0x1FF < 0x200) ∧
    (0x400 < 0x1000 ∧ 0x400 ≤ 0x400) ∧ (0xFFF < 0x1000 ∧ 0x400 ≤ 0xFFF) ∧ (0x201 < 0x1000 ∧ 0x201 % 2 ≠ 0) ∧
    (0x034 < 0x1000 ∧ 0x034 < 0x038 ∧ (2 = 1 ∨ 2 = 2)) ∧ (0x200 < 0x1000 ∧ 8 ≠ 1 ∧ 8 ≠ 2 ∧ 8 ≠ 4) := by decide

/-- The first and last byte of the window, and the bytes on either side of it. -/
theorem witness_BlockAnswersItsWindow :
    (0 < 0x1000 ∧ 0x5000 = { State.reset.platform with framerBase := 0x5000 }.framerBase + 0) ∧
    (0xFFF < 0x1000 ∧ 0x5FFF = { State.reset.platform with framerBase := 0x5000 }.framerBase + 0xFFF) ∧
    0x4FFF < { State.reset.platform with framerBase := 0x5000 }.framerBase ∧
    { State.reset.platform with framerBase := 0x5000 }.framerBase + 0x1000 ≤ 0x6000 := by decide

theorem witness_ReadOnlyWritesAreIgnored :
    (Reg.rxAvail = .lastParam ∨ Reg.rxAvail = .lastAck ∨ Reg.rxAvail = .stallCount ∨ Reg.rxAvail = .rxCount ∨
      Reg.rxAvail = .rxCsum ∨ Reg.rxAvail = .txCsum ∨ Reg.rxAvail = .rxAvail) ∧
    ((1 = 1 ∨ 1 = 2 ∨ 1 = 4) ∧ 0x100 % 1 = 0 ∧ 0x100 ≤ 0x100 ∧ 0x100 < 0x110) ∧
    ((2 = 1 ∨ 2 = 2 ∨ 2 = 4) ∧ 0x10E % 2 = 0 ∧ 0x100 ≤ 0x10E ∧ 0x10E < 0x110) ∧
    ((4 = 1 ∨ 4 = 2 ∨ 4 = 4) ∧ 0x3FC % 4 = 0 ∧ 0x200 ≤ 0x3FC ∧ 0x3FC < 0x400) := by decide

theorem witness_ResetFromAnyState : (withEvent haltedState .reset).inputs = .reset :: [] := rfl

theorem witness_CallResultFromStatus :
    { State.reset.flags with done := true }.done = true ∧
    (haltedState.flags.done = false ∧ haltedState.flags.timeout = true) ∧
    (∃ f : Flags, f.done = false ∧ f.timeout = false ∧ f.csumErr = true) ∧
    (∃ f : Flags, f.done = false ∧ f.timeout = false ∧ f.csumErr = false ∧ f.busyErr = true) :=
  ⟨rfl, ⟨rfl, rfl⟩, ⟨⟨false, false, true, false⟩, rfl, rfl, rfl⟩, ⟨⟨false, false, false, true⟩, rfl, rfl, rfl, rfl⟩⟩

theorem witness_DriverCallLaunchesExchange :
    State.reset.eng = .idle ∧
    (State.reset.driverStart (.call 0x0001 0) 0 plain).driver.phase = .writeCmd 0x0001 0 .plain ∧
    (State.reset.driverStart (.call 0x0001 0) 0 plain).eng = .idle := by decide

theorem witness_EnrollNackClassification :
    (0x0031 : Word16) ≠ 0x0030 ∧ (199 : Word32).toNat ≤ 199 ∧ 199 < (200 : Word32).toNat := by decide

theorem witness_enroll_steps_capture : 0 < 3 ∧ 2 < 3 := by decide

/-- 499 NACKs, one fewer than the ceiling, and 500. -/
theorem witness_CaptureLoopCeiling :
    (∃ nacks : List (Word16 × Word32), (∀ r, r ∈ nacks → r.1 ≠ 0x0030#16) ∧ nacks.length < 500) ∧
    (∃ nacks : List (Word16 × Word32), (∀ r, r ∈ nacks → r.1 ≠ 0x0030#16) ∧ nacks.length = 500) :=
  ⟨⟨List.replicate 499 (0x0031, 0x1012), fun r h => by rw [List.eq_of_mem_replicate h]; decide,
      by rw [List.length_replicate]; decide⟩,
    ⟨List.replicate 500 (0x0031, 0x1012), fun r h => by rw [List.eq_of_mem_replicate h]; decide,
      List.length_replicate⟩⟩

theorem witness_EnrollmentSequence : (0x0031 : Word16) ≠ 0x0030#16 := by decide

/-- A NACK, and the two kinds of presence reply. -/
theorem witness_IdentifyAndPresence :
    (0x0060 : Word16) ≠ 0x0030#16 ∧ (0x1012 : Word32) = 0x1012#32 ∧ (0 : Word32) ≠ 0x1012#32 := by decide

/-- An idle block, a busy one, and the first and last byte of the template. -/
theorem witness_TemplateRetrieval :
    State.reset.eng = .idle ∧ State.reset.busy = false ∧ (issued (.recvData plain)).busy = true ∧
    ([] : List Byte).length < 498 ∧ ∃ got : List Byte, got.length = 497 ∧ got.length < 498 :=
  ⟨rfl, rfl, rfl, by decide, List.replicate 497 0, List.length_replicate, by rw [List.length_replicate]; decide⟩

/-- Reads that answer data and reads that get the ERROR response, a busy and an idle block, and both conditions. -/
theorem witness_HostLinesMakeTheirAccesses :
    State.reset.memRead (regOffset .maxPolls) 4 = .data 300 ∧
    lastDataByte.memRead (0x200 + 511) 1 = .data 0 ∧ lastDataByte.memRead (0x200 + 508) 4 = .data 0 ∧
    State.reset.memRead (0x200 + 512) 1 = .error ∧ State.reset.memRead (0x200 + 1) 4 = .error ∧
    (issued (.exchange plain)).busy = true ∧ State.reset.busy = false ∧
    evalExpr [] (.eq (.lit 0) (.var 7)) ≠ 0 ∧ evalExpr [] (.lt (.lit 0) (.lit 0)) = 0 ∧ 3 ≠ 2 := by decide

end Sys2Proof.Tests
end

section
/-!
PROOFS. What a step makes of the Engine's phase, and that fair runs leave SEND and SLEEP (00_scope.md R7,
41_link_operations.md R104, R123).
-/
namespace Sys2Proof.Machine

/-! ### What a step of the Host can do -/

/-- The events of the Host and its software (20_memory.md R59). -/
def isHostEvent : Event → Bool
  | .issue _ | .hostWrite | .busRead _ _ | .busWrite _ _ _ | .hostTurn | .driverStart _ _ _ | .driverTurn
  | .sinkAnswer _ => true
  | .engine _ | .moduleByte _ | .moduleResume | .tick | .reset | .transportReset => false

/-- From `s` the Host changes its own fields alone, or makes one register write besides. -/
inductive HostMove (s : State) : State → Prop
  | own (h : HostAgent) (d : Driver) : HostMove s { s with host := h, driver := d }
  | write (r : Reg) (v : Word32) (before after : HostAgent) (d : Driver) :
      HostMove s { State.regWrite { s with host := before } r v with host := after, driver := d }

/-- A register write by `wr`, whatever the Host's own fields are before and after it. -/
theorem hostMove_wr (s : State) (r : Reg) (v : Word32) (before after : HostAgent) :
    HostMove s { State.wr { s with host := before } r v with host := after } := by
  rw [wr_eq]
  exact .write r v before after _

theorem hostMove_memWrite (s : State) (off n : Nat) (v : Word32) : HostMove s (s.memWrite off n v) := by
  rcases memWrite_cases s off n v with ⟨r, -, -, h⟩ | ⟨-, -, h⟩ | ⟨-, h⟩ <;> rw [h]
  · rw [← wr_eq]; exact hostMove_wr s r v s.host _
  · exact .own _ _
  · exact .own _ _

theorem hostMove_busWrite (s : State) (addr n : Nat) (v : Word32) : HostMove s (s.busWrite addr n v) := by
  rcases busWrite_cases s addr n v with ⟨off, -, h⟩ | ⟨-, h⟩ <;> rw [h]
  · exact hostMove_memWrite s off n v
  · exact .own _ _

theorem hostMove_perform (s : State) (a : HostAction) : HostMove s (s.perform a) := by
  rcases perform_cases s a with ⟨w, h⟩ | ⟨c, ws, h⟩ <;> rw [h]
  · exact hostMove_wr s .ctrl w s.host _
  · exact hostMove_wr s .cmd c s.host _

theorem hostMove_hostWrite (s : State) : HostMove s s.hostWrite := by
  rcases hostWrite_cases s with ⟨-, h⟩ | ⟨w, rest, -, h⟩ <;> rw [h]
  · exact .own s.host s.driver
  · exact hostMove_wr s w.1 w.2 _ _

theorem hostMove_hostTurn (s : State) : HostMove s s.hostTurn := by
  rcases hostTurn_cases s with ⟨r, v, h⟩ | ⟨h', h⟩ <;> rw [h]
  · exact hostMove_wr s r v s.host _
  · exact .own h' s.driver

theorem hostMove_driverTurn (s : State) : HostMove s s.driverTurn := by
  rcases driverTurn_cases s with ⟨r, v, p, h⟩ | ⟨h', d, h⟩ <;> rw [h]
  · rw [wr_eq]; exact .write r v s.host _ _
  · exact .own h' d

/-- An event of the Host is a Host move. -/
theorem hostMove_agentStep (s : State) {e : Event} (he : isHostEvent e = true) : HostMove s (s.agentStep e) := by
  cases e with
  | issue a => exact hostMove_perform s a
  | hostWrite => exact hostMove_hostWrite s
  | busRead addr n => obtain ⟨r, h⟩ := busRead_eq_answer s addr n; rw [State.agentStep, h]; exact .own _ _
  | busWrite addr n v => exact hostMove_busWrite s addr n v
  | hostTurn => exact hostMove_hostTurn s
  | driverStart t q pol => obtain ⟨d, h⟩ := driverStart_cases s t q pol; rw [State.agentStep, h]; exact .own _ d
  | driverTurn => exact hostMove_driverTurn s
  | sinkAnswer ok => obtain ⟨d, h⟩ := sinkAnswer_cases s ok; rw [State.agentStep, h]; exact .own _ d
  | engine _ | moduleByte _ | moduleResume | tick | reset | transportReset => cases he

/-- Everything a step can do: a Host move, or the step of another agent. -/
theorem step_agent_cases {s t : State} (h : step s = .next t) :
    (isHostEvent s.nextEvent = true ∧ HostMove s.popEvent t) ∨
    (isHostEvent s.nextEvent = false ∧ t = s.popEvent.agentStep s.nextEvent) := by
  rcases stepEvent_cases s.nextEvent s.popEvent with ⟨i, hi, hs⟩ | ⟨-, hs⟩ <;>
    rw [step, hs] at h <;> cases h
  · refine .inl ⟨?_, hostMove_perform _ _⟩
    cases he : s.nextEvent with
    | issue a => rfl
    | _ => rw [he] at hi; cases hi
  · cases he : isHostEvent s.nextEvent with
    | true => exact .inl ⟨rfl, hostMove_agentStep _ he⟩
    | false => exact .inr ⟨rfl, rfl⟩

/-- With `e` offered, it is the event that happens, or a pending write comes first. -/
theorem nextEvent_offer (s : State) (e : Event) : (s.offer e).nextEvent = e ∨ (s.offer e).nextEvent = .hostWrite := by
  unfold State.nextEvent
  split
  · exact .inr rfl
  · exact .inl rfl

/-! ### The Engine's phase -/

/-- The Engine's state, CTRL, and the two counters of a phase are the same. -/
def SamePhase (s t : State) : Prop :=
  t.eng = s.eng ∧ t.ctrl = s.ctrl ∧ t.txIdx = s.txIdx ∧ t.sleepLeft = s.sleepLeft

/-- In SEND the operation sends a packet and a byte of it is left (10_state.md R18, 41_link_operations.md R111). -/
def SendReady (s : State) : Prop :=
  s.eng = .send → (s.ctrl.op = .exchange ∨ s.ctrl.op = .sendCmd) ∧ s.txIdx < 12

theorem SamePhase.trans {s t u : State} (hst : SamePhase s t) (htu : SamePhase t u) : SamePhase s u := by
  obtain ⟨heng, hctrl, htx, hsleep⟩ := hst
  obtain ⟨heng', hctrl', htx', hsleep'⟩ := htu
  exact ⟨heng'.trans heng, hctrl'.trans hctrl, htx'.trans htx, hsleep'.trans hsleep⟩

theorem SamePhase.sendReady {s t : State} (h : SamePhase s t) (hs : SendReady s) : SendReady t := by
  obtain ⟨heng, hctrl, htx, -⟩ := h
  unfold SendReady
  rw [heng, hctrl, htx]
  exact hs

theorem sendReady_of_ne {s : State} (h : s.eng ≠ .send) : SendReady s := fun hs => absurd hs h

theorem sendReady_of_inv {s : State} (h : Inv s) : SendReady s := fun hs =>
  have ⟨hop, htx, _⟩ := h.sending hs
  ⟨hop, htx⟩

theorem samePhase_popEvent (s : State) : SamePhase s s.popEvent :=
  ⟨popEvent_eng s, popEvent_ctrl s, popEvent_txIdx s, popEvent_sleepLeft s⟩

/-- A CTRL write in an idle block starts SEND at its first byte, if it starts SEND at all (R105). -/
theorem writeCtrl_sendReady {s : State} (v : Word32) (hs : s.eng = .idle) : SendReady (s.writeCtrl v) := by
  rcases writeCtrl_cases s v with ⟨-, h⟩ | ⟨-, h⟩ <;> rw [h]
  · rcases launch_cases (s.setCtrl v) with ⟨hop, h⟩ | ⟨-, h⟩ <;> rw [h]
    · exact fun _ => ⟨hop, Nat.zero_lt_succ 11⟩
    · exact sendReady_of_ne nofun
  · exact sendReady_of_ne (by simp [hs])

/-- Everything a register write can do to the phase: nothing, or, in an idle block alone, start one. -/
theorem regWrite_phase (s : State) (r : Reg) (v : Word32) :
    SamePhase s (s.regWrite r v) ∨ (s.eng = .idle ∧ SendReady (s.regWrite r v)) := by
  rcases regWrite_cases s r v with ⟨-, -, h⟩ | ⟨hfree, h⟩ <;> rw [h]
  · exact .inl ⟨rfl, rfl, rfl, rfl⟩
  · cases r with
    | ctrl =>
      have hidle : s.eng = .idle := (locked_false_iff s).1 (hfree.resolve_right nofun)
      exact .inr ⟨hidle, writeCtrl_sendReady v hidle⟩
    | _ => exact .inl ⟨rfl, rfl, rfl, rfl⟩

theorem HostMove.phase {s t : State} (h : HostMove s t) : SamePhase s t ∨ (s.eng = .idle ∧ SendReady t) := by
  cases h with
  | own h d => exact .inl ⟨rfl, rfl, rfl, rfl⟩
  | write r v before after d => exact regWrite_phase { s with host := before } r v

theorem samePhase_moduleByte (s : State) (b : Byte) : SamePhase s (s.moduleByte b) := by
  rcases moduleByte_cases s b with ⟨-, -, h⟩ | ⟨-, h⟩ | ⟨-, h⟩ <;> rw [h] <;> exact ⟨rfl, rfl, rfl, rfl⟩

theorem samePhase_moduleResume (s : State) : SamePhase s s.moduleResume := by
  rcases moduleResume_cases s with ⟨b, rest, -, -, h⟩ | h <;> rw [h] <;> exact ⟨rfl, rfl, rfl, rfl⟩

theorem samePhase_transportReset (s : State) : SamePhase s s.transportReset :=
  ⟨transportReset_eng s, transportReset_ctrl s, transportReset_txIdx s, transportReset_sleepLeft s⟩

/-- Everything an event can do to the phase: the Engine steps, the Timer ticks, the block is reset, a phase starts in an
idle block, or the phase stays. -/
theorem step_phase_cases {s t : State} (h : step s = .next t) :
    (∃ a, s.nextEvent = .engine a ∧ t = s.popEvent.engineStep a) ∨
    (s.nextEvent = .tick ∧ t = s.popEvent.tick) ∨
    (s.nextEvent = .reset ∧ t.eng = .idle) ∨
    (s.eng = .idle ∧ SendReady t) ∨
    SamePhase s.popEvent t := by
  rcases step_agent_cases h with ⟨-, hm⟩ | ⟨hhost, ht⟩
  · rcases hm.phase with hp | ⟨hidle, hready⟩
    · exact .inr (.inr (.inr (.inr hp)))
    · exact .inr (.inr (.inr (.inl ⟨by rwa [popEvent_eng] at hidle, hready⟩)))
  · subst ht
    cases he : s.nextEvent with
    | engine a => exact .inl ⟨a, rfl, rfl⟩
    | tick => exact .inr (.inl ⟨rfl, rfl⟩)
    | reset => exact .inr (.inr (.inl ⟨rfl, rfl⟩))
    | moduleByte b => exact .inr (.inr (.inr (.inr (samePhase_moduleByte _ b))))
    | moduleResume => exact .inr (.inr (.inr (.inr (samePhase_moduleResume _))))
    | transportReset => exact .inr (.inr (.inr (.inr (samePhase_transportReset _))))
    | _ => rw [he] at hhost; cases hhost

/-! ### Where the Engine's and the Timer's steps lead -/

/-- A stall ends the operation or polls again (R115). -/
theorem stall_eng (s : State) : s.stall.eng ≠ .send ∧ s.stall.eng ≠ .sleep := by
  rcases stall_cases s with ⟨-, h⟩ | ⟨-, h⟩ <;> rw [h]
  · rw [raise_timeout_eng]; cases s.countStall.ctrl.toFatal <;> exact ⟨nofun, nofun⟩
  · exact ⟨nofun, nofun⟩

theorem complete_eng (s : State) (p : List Byte) : (s.complete p).eng = .idle := by
  rcases complete_cases s p with ⟨-, h⟩ | ⟨-, -, h⟩ | ⟨-, -, h⟩ <;> rw [h] <;> rfl

/-- No poll leads back to SEND (R112 to R117). -/
theorem poll_eng_ne_send {s : State} (hs : s.eng = .recv) : s.poll.eng ≠ .send := by
  rcases poll_cases s with ⟨b, rest, -, h⟩ | ⟨-, -, h⟩ | ⟨-, -, h⟩ <;> rw [h]
  · rcases receiveByte_cases s b rest with ⟨-, h⟩ | ⟨-, h⟩ <;> rw [h]
    · simp [complete_eng]
    · simp [hs]
  · exact (stall_eng s).1
  · exact nofun

/-- The end of a send leaves SEND (R111). -/
theorem endOfSend_eng_ne_send {s : State} (hop : s.ctrl.op = .exchange ∨ s.ctrl.op = .sendCmd) :
    s.endOfSend.eng ≠ .send := by
  rcases endOfSend_cases s with ⟨-, h⟩ | ⟨-, h⟩ | ⟨hrecv, -⟩
  · rw [h]; exact nofun
  · rw [h]; exact nofun
  · rcases hop with hop | hop <;> simp [hop] at hrecv

/-- A byte that is accepted in SEND advances `tx_idx` and leaves more to send, or ends SEND (R110, R111). -/
theorem sendByte_progress {s : State} (hs : s.eng = .send) (hr : SendReady s) :
    s.sendByte.eng ≠ .send ∨
    (s.sendByte.eng = .send ∧ s.sendByte.ctrl = s.ctrl ∧ s.sendByte.txIdx = s.txIdx + 1 ∧ s.txIdx + 1 < 12) := by
  obtain ⟨hop, htx⟩ := hr hs
  rcases sendByte_cases s with ⟨hlt, h⟩ | ⟨-, h⟩ | ⟨hge, -⟩
  · rw [h]; exact .inr ⟨hs, rfl, rfl, hlt⟩
  · rw [h]; exact .inl (endOfSend_eng_ne_send (s := s.pushNext) hop)
  · omega

/-- Outside SLEEP a tick does nothing; in SLEEP it counts down or stalls (R115). -/
theorem tick_eng_ne_send {s : State} (hs : s.eng ≠ .send) : s.tick.eng ≠ .send := by
  rcases tick_cases s with ⟨-, -, h⟩ | ⟨-, -, h⟩ | ⟨-, h⟩ <;> rw [h]
  · exact (stall_eng _).1
  · exact hs
  · exact hs

theorem tick_of_ne_sleep {s : State} (hs : s.eng ≠ .sleep) : s.tick = s := if_neg hs

theorem engineStep_sendReady {s : State} (a : Bool) (hs : SendReady s) : SendReady (s.engineStep a) := by
  rcases engineStep_cases s a with ⟨he, -, h⟩ | ⟨he, h⟩ | ⟨-, h⟩ <;> rw [h]
  · rcases sendByte_progress he hs with hne | ⟨-, hctrl, htx, hlt⟩
    · exact sendReady_of_ne hne
    · exact fun _ => ⟨by rw [hctrl]; exact (hs he).1, by omega⟩
  · exact sendReady_of_ne (poll_eng_ne_send he)
  · exact hs

theorem tick_sendReady {s : State} (hs : SendReady s) : SendReady s.tick := by
  by_cases he : s.eng = .send
  · rwa [tick_of_ne_sleep (by simp [he])]
  · exact sendReady_of_ne (tick_eng_ne_send he)

/-- Every step keeps `SendReady`. -/
theorem step_sendReady {s t : State} (h : step s = .next t) (hs : SendReady s) : SendReady t := by
  have hpop : SendReady s.popEvent := (samePhase_popEvent s).sendReady hs
  rcases step_phase_cases h with ⟨a, -, ht⟩ | ⟨-, ht⟩ | ⟨-, ht⟩ | ⟨-, ht⟩ | ht
  · exact ht ▸ engineStep_sendReady a hpop
  · exact ht ▸ tick_sendReady hpop
  · exact sendReady_of_ne (by simp [ht])
  · exact ht
  · exact ht.sendReady hpop

/-! ### One step in SEND and in SLEEP -/

/-- An offered Engine step or tick is the one that happens. -/
theorem step_offer_engine (s : State) (a : Bool) :
    step (s.offer (.engine a)) = .next (State.engineStep { s with inputs := [] } a) :=
  step_offer (deferred_of_no_access rfl rfl)

theorem step_offer_tick (s : State) : step (s.offer .tick) = .next (State.tick { s with inputs := [] }) :=
  step_offer (deferred_of_no_access rfl rfl)

/-- A step in SEND at which no byte is accepted and no reset comes keeps the phase. -/
theorem step_samePhase_of_send {s t : State} {e : Event} (h : step (s.offer e) = .next t) (hs : s.eng = .send)
    (hacc : e ≠ .engine true) (hreset : e ≠ .reset) : SamePhase s t := by
  have hpop : SamePhase s (s.offer e).popEvent := samePhase_popEvent (s.offer e)
  have heng : (s.offer e).popEvent.eng = .send := by simp [hs]
  have hnext {e' : Event} (he : (s.offer e).nextEvent = e') (hw : e' ≠ .hostWrite) : e = e' :=
    (nextEvent_offer s e).elim (fun h => h.symm.trans he) (fun h => absurd (he.symm.trans h) hw)
  rcases step_phase_cases h with ⟨a, he, ht⟩ | ⟨-, ht⟩ | ⟨he, -⟩ | ⟨hidle, -⟩ | hp
  · cases a with
    | true => exact absurd (hnext he nofun) hacc
    | false => rwa [ht, State.engineStep, heng]
  · rwa [ht, tick_of_ne_sleep (by rw [heng]; exact nofun)]
  · exact absurd (hnext he nofun) hreset
  · simp [hs] at hidle
  · exact hpop.trans hp

/-- An accepted byte that does not end SEND leaves fewer bytes to send. -/
theorem engineStep_send_lt {s : State} (hs : s.eng = .send) (hr : SendReady s) (ht : (s.engineStep true).eng = .send) :
    12 - (s.engineStep true).txIdx < 12 - s.txIdx := by
  have hstep : s.engineStep true = s.sendByte := by simp [State.engineStep, hs]
  rw [hstep] at ht ⊢
  rcases sendByte_progress hs hr with hne | ⟨-, -, htx, hlt⟩
  · exact absurd ht hne
  · omega

theorem step_send_accepts {s t : State} (h : step (s.offer (.engine true)) = .next t) (hs : s.eng = .send)
    (hr : SendReady s) (ht : t.eng = .send) : 12 - t.txIdx < 12 - s.txIdx := by
  rw [step_offer_engine] at h
  cases h
  exact engineStep_send_lt (s := { s with inputs := [] }) hs hr ht

/-- No step within SEND adds a byte to send. -/
theorem step_send_le {s t : State} {e : Event} (h : step (s.offer e) = .next t) (hs : s.eng = .send)
    (hr : SendReady s) (ht : t.eng = .send) : 12 - t.txIdx ≤ 12 - s.txIdx := by
  by_cases hacc : e = .engine true
  · subst hacc
    exact (step_send_accepts h hs hr ht).le
  · have hreset : e ≠ .reset := by
      rintro rfl
      rw [step_offer (deferred_of_no_access rfl rfl)] at h
      cases h
      cases ht
    obtain ⟨-, -, htx, -⟩ := step_samePhase_of_send h hs hacc hreset
    rw [htx]

/-- A tick that does not end SLEEP leaves fewer ticks to come. -/
theorem tick_sleep_lt {s : State} (ht : s.tick.eng = .sleep) :
    (s.tick.sleepLeft - 1#16).toNat < (s.sleepLeft - 1#16).toNat := by
  rcases tick_cases s with ⟨-, -, h⟩ | ⟨-, hz, h⟩ | ⟨hne, h⟩
  · exact absurd (h ▸ ht) (stall_eng _).2
  · have hleft : s.tick.sleepLeft = s.sleepLeft - 1#16 := by rw [h]; rfl
    rw [hleft]
    bv_omega
  · exact absurd (h ▸ ht) hne

/-- No step within SLEEP adds a tick to it. -/
theorem step_sleep_le {s t : State} (h : step s = .next t) (hs : s.eng = .sleep) (ht : t.eng = .sleep) :
    (t.sleepLeft - 1#16).toNat ≤ (s.sleepLeft - 1#16).toNat := by
  rcases step_phase_cases h with ⟨a, -, h⟩ | ⟨-, h⟩ | ⟨-, h⟩ | ⟨h, -⟩ | ⟨-, -, -, h⟩
  · have hstay : s.popEvent.engineStep a = s.popEvent := by simp [State.engineStep, hs]
    simp [h, hstay]
  · subst h
    simpa using (tick_sleep_lt ht).le
  · simp [h] at ht
  · simp [hs] at h
  · simp [h]

/-! ### Runs -/

/-- Natural numbers that never rise do not fall again and again. -/
theorem not_antitone_falls_forever {f : Nat → Nat} (hf : Antitone f) (hfalls : ∀ n, ∃ m, n ≤ m ∧ f (m + 1) < f m) :
    False := by
  obtain ⟨m, hm, hlt⟩ := hfalls (Function.argmin f)
  have hmin : f (Function.argmin f) ≤ f (m + 1) := Function.argmin_le f (m + 1)
  have hle : f m ≤ f (Function.argmin f) := hf hm
  omega

/-- A phase ends if a measure of it never rises within it and falls at moments that come again and again. -/
theorem phase_ends {r : Nat → State} {e : Eng} {n : Nat} (left : State → Nat) {falls : Nat → Prop}
    (hle : ∀ m, (r m).eng = e → (r (m + 1)).eng = e → left (r (m + 1)) ≤ left (r m))
    (hlt : ∀ m, falls m → (r m).eng = e → (r (m + 1)).eng = e → left (r (m + 1)) < left (r m))
    (hfair : (∀ m, n ≤ m → (r m).eng = e) → ∀ k, n ≤ k → ∃ m, k ≤ m ∧ falls m) :
    ∃ m, n ≤ m ∧ (r m).eng ≠ e := by
  by_contra hno
  have hstay : ∀ m, n ≤ m → (r m).eng = e := fun m hm => by_contra fun hne => hno ⟨m, hm, hne⟩
  refine not_antitone_falls_forever (f := fun k => left (r (n + k)))
    (antitone_nat_of_succ_le fun k => hle _ (hstay (n + k) (by omega)) (hstay (n + k + 1) (by omega))) fun k => ?_
  obtain ⟨m, hm, hfall⟩ := hfair hstay (n + k) (by omega)
  obtain ⟨j, rfl⟩ := Nat.exists_eq_add_of_le (show n ≤ m by omega)
  exact ⟨j, by omega, hlt _ hfall (hstay (n + j) (by omega)) (hstay (n + j + 1) (by omega))⟩

theorem run_sendReady {es : Nat → Event} {r : Nat → State} (hrun : IsRun es r) (h0 : SendReady (r 0)) (n : Nat) :
    SendReady (r n) := by
  induction n with
  | zero => exact h0
  | succ n ih => exact step_sendReady (hrun n) ih

theorem fairRun_leaves_send {es : Nat → Event} {r : Nat → State} (hf : FairRun es r) (h0 : SendReady (r 0)) (n : Nat) :
    ∃ m, n ≤ m ∧ (r m).eng ≠ .send := by
  refine phase_ends (fun s => 12 - s.txIdx) (falls := fun m => es m = .engine true) ?_ ?_ ?_
  · exact fun m hs ht => step_send_le (hf.run m) hs (run_sendReady hf.run h0 m) ht
  · intro m hacc hs ht
    have hstep := hf.run m
    rw [hacc] at hstep
    exact step_send_accepts hstep hs (run_sendReady hf.run h0 m) ht
  · exact fun hstay k hk => hf.accept k fun m hm => hstay m (hk.trans hm)

theorem fairRun_leaves_sleep {es : Nat → Event} {r : Nat → State} (hf : FairRun es r) (n : Nat) :
    ∃ m, n ≤ m ∧ (r m).eng ≠ .sleep := by
  refine phase_ends (fun s => (s.sleepLeft - 1#16).toNat) (falls := fun m => es m = .tick) ?_ ?_ ?_
  · exact fun m hs ht => step_sleep_le (s := (r m).offer (es m)) (hf.run m) hs ht
  · intro m htick hs ht
    have hstep := hf.run m
    rw [htick, step_offer_tick] at hstep
    injection hstep with hstep
    rw [← hstep] at ht ⊢
    exact tick_sleep_lt ht
  · exact fun _ k _ => hf.ticks k

/-- A run in which no byte is accepted and no reset comes stays in SEND (R123). -/
theorem run_hangs_in_send {es : Nat → Event} {r : Nat → State} {n : Nat} (hrun : IsRun es r) (hn : (r n).eng = .send)
    (hes : ∀ m, n ≤ m → es m ≠ .engine true ∧ es m ≠ .reset) {m : Nat} (hm : n ≤ m) : (r m).eng = .send := by
  induction m, hm using Nat.le_induction with
  | base => exact hn
  | succ m hm ih =>
    obtain ⟨hacc, hreset⟩ := hes m hm
    obtain ⟨heng, -⟩ := step_samePhase_of_send (hrun m) ih hacc hreset
    exact heng.trans ih

/-- The Engine's own step does nothing in SEND with no byte accepted, in IDLE, in SLEEP and in HALTED (R104). -/
theorem engineStep_holds (s : State) (accept : Bool) :
    (s.eng = .send → s.engineStep false = s) ∧ (s.eng = .idle → s.engineStep accept = s) ∧
    (s.eng = .sleep → s.engineStep accept = s) ∧ (s.eng = .halted → s.engineStep accept = s) := by
  refine ⟨?_, ?_, ?_, ?_⟩ <;> intro h <;> simp [State.engineStep, h]

/-- Settles O23: in SEND an accepted byte lowers the bytes left, in SLEEP a tick lowers the ticks left, and no other step
within the phase raises them. -/
theorem engineHoldsAndFairRunsMoveOn : Obligations.EngineHoldsAndFairRunsMoveOn := by
  refine ⟨engineStep_holds, fun es r hf hinv n => ⟨?_, fairRun_leaves_sleep hf n⟩, fun es r n hrun hn hes m hm => ?_⟩
  · exact fairRun_leaves_send hf (sendReady_of_inv hinv) n
  · have heng : (r m).eng = .send := run_hangs_in_send hrun hn hes hm
    exact ⟨heng, by simp [State.busy, heng]⟩

end Sys2Proof.Machine
end

section
/-!
PROOFS. The invariant: it holds at reset, and every step keeps it (10_state.md R18 to R34, 41_link_operations.md R120,
60_exceptions.md R158, R159). What it says of a state with the Engine in IDLE is what it says in every phase; each
operation is shown to keep that part, and the phase it leads to adds its own.
-/
namespace Sys2Proof
open Machine

/-- The operation can go on receiving: what the invariant asks of RECV and SLEEP alike. -/
structure CanReceive (s : State) : Prop where
  counters : ∃ len, rxLen s.ctrl.op = some len ∧ s.rxCount.toNat < len ∧ s.stallCount.toNat < max s.maxPolls.toNat 1
  sent : s.ctrl.op = .exchange → s.txIdx = 12
  noOutcome : noOutcome s.flags = true

/-! ### The phases -/

/-- The part of the invariant that speaks of no phase. -/
theorem Inv.atIdle {s : State} (h : Inv s) : Inv { s with eng := .idle } :=
  { h with
    sending := nofun
    receiving := nofun
    sleeping := nofun
    exchangeSent := nofun
    halting := nofun
    busyNoOutcome := nofun }

theorem Inv.canReceive {s : State} (h : Inv s) (hs : s.eng = .recv ∨ s.eng = .sleep) : CanReceive s where
  counters := h.receiving hs
  sent := h.exchangeSent hs
  noOutcome := h.busyNoOutcome (by rcases hs with hs | hs <;> simp [State.busy, hs])

/-- A block in IDLE meets the invariant once the part that speaks of no phase holds. -/
theorem inv_of_idle {s : State} (he : s.eng = .idle) (h : Inv { s with eng := .idle }) : Inv s := by
  rwa [← he] at h

theorem inv_recv {s : State} (h : Inv { s with eng := .idle }) (hr : CanReceive s) : Inv { s with eng := .recv } :=
  { h with
    sending := nofun
    receiving := fun _ => hr.counters
    sleeping := nofun
    exchangeSent := fun _ => hr.sent
    halting := nofun
    busyNoOutcome := fun _ => hr.noOutcome }

theorem inv_sleep {s : State} (h : Inv { s with eng := .idle }) (hr : CanReceive s)
    (hleft : 0 < s.sleepLeft.toNat ∧ s.sleepLeft.toNat ≤ s.pollInterval.toNat) : Inv { s with eng := .sleep } :=
  { h with
    sending := nofun
    receiving := fun _ => hr.counters
    sleeping := fun _ => hleft
    exchangeSent := fun _ => hr.sent
    halting := nofun
    busyNoOutcome := fun _ => hr.noOutcome }

/-! ### The flags -/

theorem noOutcome_iff (f : Flags) : noOutcome f = true ↔ f.done = false ∧ f.timeout = false ∧ f.csumErr = false := by
  simp [noOutcome, and_assoc]

theorem atMostOneOutcome_clearFlags {f : Flags} (v : Word32) (h : atMostOneOutcome f = true) :
    atMostOneOutcome (clearFlags v f) = true := by
  simp only [atMostOneOutcome, clearFlags, Bool.and_eq_true, Bool.not_eq_true', Bool.and_eq_false_iff] at h ⊢
  tauto

theorem noOutcome_clearFlags {f : Flags} (v : Word32) (h : noOutcome f = true) : noOutcome (clearFlags v f) = true := by
  rw [noOutcome_iff] at h ⊢
  simp [clearFlags, h]

/-- An operation with no outcome yet may end with DONE (60_exceptions.md R159). -/
theorem inv_finish {s : State} (h : Inv { s with eng := .idle }) (hn : noOutcome s.flags = true) : Inv s.finish := by
  obtain ⟨-, htimeout, hcsum⟩ := (noOutcome_iff _).1 hn
  exact { h with
    halting := nofun
    oneOutcome := by simp [State.finish, atMostOneOutcome, htimeout, hcsum]
    busyNoOutcome := nofun }

theorem inv_raise_checksumMismatch {s : State} (h : Inv { s with eng := .idle }) (hn : noOutcome s.flags = true) :
    Inv (s.raise .checksumMismatch) := by
  obtain ⟨hdone, htimeout, -⟩ := (noOutcome_iff _).1 hn
  exact { h with
    halting := nofun
    oneOutcome := by simp [errorFlags, atMostOneOutcome, hdone, htimeout]
    busyNoOutcome := nofun }

/-- A Timeout leads to IDLE or HALTED (60_exceptions.md R158). -/
theorem inv_raise_timeout {s : State} (h : Inv { s with eng := .idle }) (hn : noOutcome s.flags = true) :
    Inv (s.raise .timeout) := by
  obtain ⟨hdone, -, hcsum⟩ := (noOutcome_iff _).1 hn
  have hone : atMostOneOutcome (errorFlags .timeout s.flags) = true := by
    simp [errorFlags, atMostOneOutcome, hdone, hcsum]
  cases hfatal : s.ctrl.toFatal with
  | false =>
    refine inv_of_idle (by simp [hfatal]) ?_
    exact { h with oneOutcome := hone, busyNoOutcome := nofun }
  | true =>
    have heng : s.raise .timeout = { s with flags := errorFlags .timeout s.flags, eng := .halted } := by
      simp [State.raise, hfatal]
    rw [heng]
    exact { h with
      sending := nofun
      receiving := nofun
      sleeping := nofun
      exchangeSent := nofun
      halting := fun _ => ⟨hfatal, hdone, hcsum⟩
      oneOutcome := hone
      busyNoOutcome := nofun }

/-! ### The launch (41_link_operations.md R105) -/

/-- The encode leaves TX_BUF holding the packet of CMD and PARAM (30_encoding.md R77). -/
theorem encodeTx_txHolds (s : State) : txHolds s.encodeTx.mem (encodeCommand s.cmd s.param) := by
  intro i hi
  rw [encodeTx_mem]
  exact Memory.read_writeAll_inside _ _ _ i hi

/-- The encode leaves TX_CSUM the checksum field of TX_BUF (10_state.md R34). -/
theorem encodeTx_txCsum_matches (s : State) {b c : Byte}
    (hb : Memory.read s.encodeTx.mem (Config.txBase + 10) = some b)
    (hc : Memory.read s.encodeTx.mem (Config.txBase + 11) = some c) : s.encodeTx.txCsum = le16 b c := by
  rw [encodeTx_txHolds s 10 (by simp)] at hb
  rw [encodeTx_txHolds s 11 (by simp)] at hc
  cases hb
  cases hc
  simp [packetChecksum]

/-- After the clearing of a launch no outcome is set and both counters are 0. -/
theorem Inv.clearForLaunch {s : State} (h : Inv { s with eng := .idle }) :
    Inv { s.clearForLaunch with eng := .idle } :=
  { h with
    sending := nofun
    receiving := nofun
    halting := nofun
    oneOutcome := rfl
    busyNoOutcome := nofun
    rxCountBound := Nat.zero_le _
    rxWritten := nofun }

theorem inv_startSend {s : State} (h : Inv { s with eng := .idle })
    (hop : s.ctrl.op = .exchange ∨ s.ctrl.op = .sendCmd) : Inv s.clearForLaunch.startSend :=
  { h.clearForLaunch with
    memCanonical := encodeTx_wf (s := s) h.memCanonical
    txIdxBound := Nat.zero_le _
    sending := fun _ => ⟨hop, Nat.zero_lt_succ _, encodeTx_txHolds s, rfl, rfl⟩
    receiving := nofun
    sleeping := nofun
    exchangeSent := nofun
    halting := nofun
    busyNoOutcome := fun _ => rfl
    rxWritten := nofun
    txCsumMatches := fun _ _ => encodeTx_txCsum_matches s }

theorem inv_startRecv {s : State} (h : Inv { s with eng := .idle })
    (hop : s.ctrl.op = .recvData ∨ s.ctrl.op = .recvCmd) : Inv s.clearForLaunch.startRecv := by
  refine inv_recv (s := s.clearForLaunch) h.clearForLaunch ⟨?_, ?_, rfl⟩
  · rcases hop with hop | hop <;> simp [hop, rxLen]
  · rcases hop with hop | hop <;> simp [hop]

/-! ### The host's writes -/

theorem inv_writeCtrl {s : State} (v : Word32) (h : Inv s) (he : s.eng = .idle) : Inv (s.writeCtrl v) := by
  have hset : Inv { s.setCtrl v with eng := .idle } :=
    { h.atIdle with sending := nofun, receiving := nofun, exchangeSent := nofun, halting := nofun }
  rcases writeCtrl_cases s v with ⟨-, hw⟩ | ⟨-, hw⟩ <;> rw [hw]
  · rcases launch_cases (s.setCtrl v) with ⟨hop, hl⟩ | ⟨hop, hl⟩ <;> rw [hl]
    · exact inv_startSend hset hop
    · exact inv_startRecv hset hop
  · exact inv_of_idle he hset

theorem inv_clearStatus {s : State} (v : Word32) (h : Inv s) : Inv (s.clearStatus v) :=
  { h with
    halting := fun hs => by
      obtain ⟨hfatal, hdone, hcsum⟩ := h.halting hs
      exact ⟨hfatal, by simp [clearFlags, hdone], by simp [clearFlags, hcsum]⟩
    oneOutcome := atMostOneOutcome_clearFlags v h.oneOutcome
    busyNoOutcome := fun hs => noOutcome_clearFlags v (h.busyNoOutcome hs) }

/-- A write the lock rule lets through: the configuration registers in IDLE alone (20_memory.md R56). -/
theorem inv_writeReg {s : State} (r : Reg) (v : Word32) (h : Inv s) (hfree : s.locked = false ∨ lockable r = false) :
    Inv (s.writeReg r v) := by
  have hidle (hr : lockable r = true) : s.eng = .idle := (locked_false_iff s).1 (hfree.resolve_right (by simp [hr]))
  cases r with
  | ctrl => exact inv_writeCtrl v h (hidle rfl)
  | status => exact inv_clearStatus v h
  | cmd => exact inv_of_idle (hidle rfl) { h.atIdle with sending := nofun }
  | param => exact inv_of_idle (hidle rfl) { h.atIdle with sending := nofun }
  | pollInterval => exact inv_of_idle (hidle rfl) { h.atIdle with sleeping := nofun }
  | maxPolls => exact inv_of_idle (hidle rfl) { h.atIdle with receiving := nofun }
  | intEn => exact { h with }
  | lastParam | lastAck | stallCount | rxCount | rxCsum | txCsum | rxAvail => exact h

theorem inv_regWrite {s : State} (r : Reg) (v : Word32) (h : Inv s) : Inv (s.regWrite r v) := by
  rcases regWrite_cases s r v with ⟨-, -, hw⟩ | ⟨hfree, hw⟩ <;> rw [hw]
  · exact { h with }
  · exact inv_writeReg r v h hfree

theorem inv_hostMove {s t : State} (hm : HostMove s t) (h : Inv s) : Inv t := by
  cases hm with
  | own h' d => exact { h with }
  | write r v before after d => exact { inv_regWrite (s := { s with host := before }) r v { h with } with }

/-! ### SEND (41_link_operations.md R110, R111) -/

theorem inv_sendByte {s : State} (h : Inv s) (hs : s.eng = .send) : Inv s.sendByte := by
  obtain ⟨hop, htx, hholds, hcount, hstall⟩ := h.sending hs
  have hnone : noOutcome s.flags = true := h.busyNoOutcome (by simp [State.busy, hs])
  rcases sendByte_cases s with ⟨hmore, hstep⟩ | ⟨hlast, hstep⟩ | ⟨hdone, -⟩
  · rw [hstep]
    exact { h with
      txIdxBound := hmore.le
      sending := fun _ => ⟨hop, hmore, hholds, hcount, hstall⟩
      exchangeSent := fun hr => by simp [hs] at hr }
  · have hpush : Inv { s.pushNext with eng := .idle } :=
      { h.atIdle with txIdxBound := hlast.le, sending := nofun, exchangeSent := nofun }
    rw [hstep]
    rcases endOfSend_cases s.pushNext with ⟨hx, he⟩ | ⟨-, he⟩ | ⟨hrecv, -⟩
    · have hr : CanReceive s.pushNext :=
        { counters := ⟨12, by rw [hx]; rfl, by simp [hcount], by simp [hstall]⟩
          sent := fun _ => hlast
          noOutcome := hnone }
      rw [he]
      exact { inv_recv hpush hr with }
    · rw [he]
      exact { inv_finish hpush hnone with }
    · rcases hop with hop | hop <;> simp [hop] at hrecv
  · omega

/-! ### RECV and SLEEP (41_link_operations.md R112 to R117) -/

/-- A byte that RX_BUF has room for is stored and counted (R113). -/
theorem takeByte_eq {s : State} (b : Byte) (rest : List Byte) (hk : s.rxCount.toNat < 504) :
    s.takeByte b rest =
      { s with
        mem := Memory.write s.mem (Config.rxBase + s.rxCount.toNat) b
        rxFifo := rest
        rxCount := s.rxCount + 1#10 } := by
  simp [State.takeByte, State.storeRx, hk]

theorem rxLen_le {op : BlockOp} {len : Nat} (h : rxLen op = some len) : len ≤ 504 := by
  cases op <;> cases h <;> decide

/-- RX_COUNT does not wrap below 504. -/
theorem rxCount_succ {k : BitVec 10} (hk : k.toNat < 504) : (k + 1#10).toNat = k.toNat + 1 := by
  bv_omega

/-- Taking a byte keeps what the invariant says of every phase. -/
theorem inv_takeByte {s : State} {b : Byte} {rest : List Byte} (h : Inv s) (hk : s.rxCount.toNat < 504)
    (hf : s.rxFifo = b :: rest) : Inv { s.takeByte b rest with eng := .idle } := by
  have hcount : (s.rxCount + 1#10).toNat = s.rxCount.toNat + 1 := rxCount_succ hk
  have htx (j : Nat) (hj : j < 12) : Memory.read (Memory.write s.mem (Config.rxBase + s.rxCount.toNat) b)
      (Config.txBase + j) = Memory.read s.mem (Config.txBase + j) :=
    Memory.read_write_other _ _ (by unfold Config.txBase Config.rxBase; omega)
  rw [takeByte_eq b rest hk]
  exact { h.atIdle with
    memCanonical := Memory.wf_write b h.memCanonical (isBuffer_rx hk)
    sending := nofun
    receiving := nofun
    rxCountBound := by show (s.rxCount + 1#10).toNat ≤ 504; omega
    rxWritten := fun i (hi : i < (s.rxCount + 1#10).toNat) => by
      by_cases hlast : i = s.rxCount.toNat
      · simp [hlast]
      · show (Memory.read (Memory.write s.mem (Config.rxBase + s.rxCount.toNat) b) (Config.rxBase + i)).isSome = true
        rw [Memory.read_write_other s.mem b (by omega)]
        exact h.rxWritten i (by omega)
    txCsumMatches := fun b' c hb hc =>
      h.txCsumMatches b' c ((htx 10 (by omega)).symm.trans hb) ((htx 11 (by omega)).symm.trans hc)
    fifoBound := fun d hd => by
      have hlen : s.rxFifo.length ≤ d := h.fifoBound d hd
      rw [hf] at hlen
      exact Nat.le_of_succ_le hlen }

/-- A completion ends with DONE or CSUMERR (R117, 40_codec.md R99). -/
theorem inv_complete {s : State} (p : List Byte) (h : Inv { s with eng := .idle }) (hn : noOutcome s.flags = true) :
    Inv (s.complete p) := by
  have hrec : Inv { s.recordCsum p with eng := .idle } := { h with }
  rcases complete_cases s p with ⟨-, hc⟩ | ⟨-, -, hc⟩ | ⟨-, -, hc⟩ <;> rw [hc]
  · exact inv_raise_checksumMismatch hrec hn
  · exact inv_finish (s := (s.recordCsum p).decodeReply p) { hrec with } hn
  · exact inv_finish hrec hn

theorem inv_receiveByte {s : State} {b : Byte} {rest : List Byte} (h : Inv s) (hs : s.eng = .recv)
    (hf : s.rxFifo = b :: rest) : Inv (s.receiveByte b rest) := by
  have hr : CanReceive s := h.canReceive (.inl hs)
  obtain ⟨len, hlen, hcount, hstall⟩ := hr.counters
  have hk : s.rxCount.toNat < 504 := hcount.trans_le (rxLen_le hlen)
  have htake : Inv { s.takeByte b rest with eng := .idle } := inv_takeByte h hk hf
  rcases receiveByte_cases s b rest with ⟨-, hstep⟩ | ⟨hmore, hstep⟩ <;> rw [hstep]
  · have hn : noOutcome (s.takeByte b rest).flags = true := by rw [takeByte_flags]; exact hr.noOutcome
    exact { inv_complete _ htake hn with }
  · have hne : len ≠ s.rxCount.toNat + 1 := by
      simpa [State.packetComplete, hlen, rxCount_succ hk] using hmore
    have hr' : CanReceive (s.takeByte b rest) :=
      { counters :=
          ⟨len, by simpa using hlen, by rw [takeByte_rxCount, rxCount_succ hk]; omega, by simpa using hstall⟩
        sent := by simpa using hr.sent
        noOutcome := by simpa using hr.noOutcome }
    have hrecv := inv_recv htake hr'
    rw [← hs, ← takeByte_eng s b rest] at hrecv
    exact { hrecv with }

/-- A stall times out, or counts and polls again below the ceiling (R115). -/
theorem inv_stall {s : State} (h : Inv { s with eng := .idle }) (hr : CanReceive s) : Inv s.stall := by
  have hcount : Inv { s.countStall with eng := .idle } := { h with sending := nofun, receiving := nofun }
  rcases stall_cases s with ⟨-, hstep⟩ | ⟨hlt, hstep⟩ <;> rw [hstep]
  · exact inv_raise_timeout hcount hr.noOutcome
  · obtain ⟨len, hlen, hrx, -⟩ := hr.counters
    exact inv_recv hcount ⟨⟨len, hlen, hrx, lt_max_of_lt_left hlt⟩, hr.sent, hr.noOutcome⟩

theorem inv_poll {s : State} (h : Inv s) (hs : s.eng = .recv) : Inv s.poll := by
  have hr : CanReceive s := h.canReceive (.inl hs)
  rcases poll_cases s with ⟨b, rest, hf, hstep⟩ | ⟨-, -, hstep⟩ | ⟨-, hp, hstep⟩ <;> rw [hstep]
  · exact inv_receiveByte h hs hf
  · exact { inv_stall h.atIdle hr with }
  · have hpos : 0 < s.pollInterval.toNat := by bv_omega
    have hload : Inv { s with sleepLeft := s.pollInterval, eng := .idle } := { h.atIdle with sleeping := nofun }
    exact { inv_sleep (s := { s with sleepLeft := s.pollInterval }) hload { hr with } ⟨hpos, le_rfl⟩ with }

theorem inv_engineStep {s : State} (accept : Bool) (h : Inv s) : Inv (s.engineStep accept) := by
  rcases engineStep_cases s accept with ⟨hs, -, hstep⟩ | ⟨hs, hstep⟩ | ⟨-, hstep⟩ <;> rw [hstep]
  · exact inv_sendByte h hs
  · exact inv_poll h hs
  · exact h

theorem inv_tick {s : State} (h : Inv s) : Inv s.tick := by
  rcases tick_cases s with ⟨hs, -, hstep⟩ | ⟨hs, hleft, hstep⟩ | ⟨-, hstep⟩ <;> rw [hstep]
  · have hr : CanReceive s.countTick := { h.canReceive (.inr hs) with }
    exact inv_stall { h.atIdle with sleeping := nofun } hr
  · obtain ⟨hpos, hle⟩ := h.sleeping hs
    exact { h with
      sleeping := fun _ => by
        show 0 < (s.sleepLeft - 1#16).toNat ∧ (s.sleepLeft - 1#16).toNat ≤ s.pollInterval.toNat
        bv_omega }
  · exact h

/-! ### The Transport, the Module and reset -/

theorem fifoHasRoom_iff (s : State) :
    s.fifoHasRoom = true ↔ ∀ d, s.platform.rxFifoDepth = some d → s.rxFifo.length < d := by
  unfold State.fifoHasRoom
  split <;> simp [*]

/-- A byte enters the RX FIFO only where there is room (92_eei_decisions.md D28). -/
theorem inv_fifoAppend {s : State} (b : Byte) (h : Inv s) (hroom : s.fifoHasRoom = true) : Inv (s.fifoAppend b) :=
  { h with fifoBound := fun d hd => by simpa using (fifoHasRoom_iff s).1 hroom d hd }

theorem inv_moduleByte {s : State} (b : Byte) (h : Inv s) : Inv (s.moduleByte b) := by
  rcases moduleByte_cases s b with ⟨-, hroom, hstep⟩ | ⟨hwaits, hstep⟩ | ⟨-, hstep⟩ <;> rw [hstep]
  · exact { inv_fifoAppend b h hroom with }
  · exact { h with noWaiting := fun hno => by simp [hwaits] at hno }
  · exact { h with }

theorem inv_moduleResume {s : State} (h : Inv s) : Inv s.moduleResume := by
  rcases moduleResume_cases s with ⟨b, rest, hheld, hroom, hstep⟩ | hstep <;> rw [hstep]
  · have hpop : Inv { s with moduleWaiting := rest } :=
      { h with noWaiting := fun hno => by simp [h.noWaiting hno] at hheld }
    exact { inv_fifoAppend b hpop hroom with }
  · exact h

theorem inv_transportReset {s : State} (h : Inv s) : Inv s.transportReset := by
  rcases transportReset_cases s with ⟨-, hstep⟩ | ⟨-, hstep⟩ <;> rw [hstep]
  · exact h
  · exact { h with fifoBound := fun _ _ => Nat.zero_le _ }

/-- Settles O38: at reset the Engine is in IDLE, both counters are 0, no flag is set and nothing is written. -/
theorem invariantHoldsAtReset : Obligations.InvariantHoldsAtReset where
  memCanonical := Memory.wf_nil
  txIdxBound := Nat.zero_le _
  sending := nofun
  receiving := nofun
  sleeping := nofun
  exchangeSent := nofun
  halting := nofun
  oneOutcome := rfl
  busyNoOutcome := nofun
  rxCountBound := Nat.zero_le _
  rxWritten := nofun
  txCsumMatches := nofun
  fifoBound := nofun
  noWaiting := fun _ => rfl

theorem inv_assertReset {s : State} (h : Inv s) : Inv s.assertReset :=
  { invariantHoldsAtReset with fifoBound := h.fifoBound, noWaiting := h.noWaiting }

/-! ### Every step -/

theorem inv_popEvent {s : State} (h : Inv s) : Inv s.popEvent := by
  unfold State.popEvent
  split
  · split
    · exact h
    · exact { h with }
  · exact { h with }

/-- Settles O39: a step is a Host move or the step of another agent, and each keeps the invariant. -/
theorem stepKeepsInvariant : Obligations.StepKeepsInvariant := by
  intro s t h hstep
  have hpop : Inv s.popEvent := inv_popEvent h
  rcases step_agent_cases hstep with ⟨-, hm⟩ | ⟨hhost, rfl⟩
  · exact inv_hostMove hm hpop
  · cases he : s.nextEvent with
    | engine a => exact inv_engineStep a hpop
    | moduleByte b => exact inv_moduleByte b hpop
    | moduleResume => exact inv_moduleResume hpop
    | tick => exact inv_tick hpop
    | reset => exact inv_assertReset hpop
    | transportReset => exact inv_transportReset hpop
    | _ => rw [he] at hhost; cases hhost

end Sys2Proof
end

section
/-!
PROOFS. What a step can do to the RX FIFO, to the TX stream and to the last reply (10_state.md R40, R41,
20_memory.md R58, 40_codec.md R98).
-/
namespace Sys2Proof.Machine

/-- The RX FIFO, the TX stream and the last reply are the same. -/
structure SameLink (s t : State) : Prop where
  fifo : t.rxFifo = s.rxFifo
  stream : t.txStream = s.txStream
  reply : sameReply s t

/-- Everything the event `e` can do, from `s` to `t`, to the RX FIFO, the TX stream and the last reply. -/
inductive LinkMove (s : State) (e : Event) (t : State) : Prop
  | same (h : SameLink s t)
  /-- The Module's byte enters the RX FIFO (10_state.md R40). -/
  | append (b : Byte) (fifo : t.rxFifo = s.rxFifo ++ [b]) (stream : t.txStream = s.txStream) (reply : sameReply s t)
  /-- The Transport is reset (log 21). -/
  | drain (event : e = .transportReset) (idle : s.busy = false) (result : t = { s with rxFifo := [] }.nextDraw)
  /-- The block is reset (70_reset_and_hazards.md R170, R171). -/
  | reset (event : e = .reset) (fifo : t.rxFifo = s.rxFifo) (stream : t.txStream = s.txStream)
  /-- The Engine sends a byte (41_link_operations.md R110). -/
  | push (phase : s.eng = .send) (index : s.txIdx < 12) (stream : t.txStream = s.txStream ++ [s.txBuf s.txIdx])
      (fifo : t.rxFifo = s.rxFifo) (reply : sameReply s t)
  /-- The Engine takes a byte (41_link_operations.md R113). -/
  | pop (accept : Bool) (event : e = .engine accept) (phase : s.eng = .recv) (b : Byte) (rest : List Byte)
      (fifo : s.rxFifo = b :: rest) (result : t = s.receiveByte b rest)

/-! ### The host's writes -/

theorem sameLink_writeCtrl (s : State) (v : Word32) : SameLink s (s.writeCtrl v) := by
  rcases writeCtrl_cases s v with ⟨-, h⟩ | ⟨-, h⟩ <;> rw [h]
  · rcases launch_cases (s.setCtrl v) with ⟨-, h⟩ | ⟨-, h⟩ <;> rw [h] <;> exact ⟨rfl, rfl, rfl, rfl⟩
  · exact ⟨rfl, rfl, rfl, rfl⟩

theorem sameLink_regWrite (s : State) (r : Reg) (v : Word32) : SameLink s (s.regWrite r v) := by
  rcases regWrite_cases s r v with ⟨-, -, h⟩ | ⟨-, h⟩ <;> rw [h]
  · exact ⟨rfl, rfl, rfl, rfl⟩
  · cases r with
    | ctrl => exact sameLink_writeCtrl s v
    | _ => exact ⟨rfl, rfl, rfl, rfl⟩

theorem HostMove.sameLink {s t : State} (h : HostMove s t) : SameLink s t := by
  cases h with
  | own h d => exact ⟨rfl, rfl, rfl, rfl⟩
  | write r v before after d =>
    obtain ⟨hfifo, hstream, hreply⟩ := sameLink_regWrite { s with host := before } r v
    exact ⟨hfifo, hstream, hreply⟩

/-! ### The Engine and the Timer -/

theorem sameLink_stall (s : State) : SameLink s s.stall := by
  rcases stall_cases s with ⟨-, h⟩ | ⟨-, h⟩ <;> rw [h] <;> exact ⟨rfl, rfl, rfl, rfl⟩

theorem sameLink_tick (s : State) : SameLink s s.tick := by
  rcases tick_cases s with ⟨-, -, h⟩ | ⟨-, -, h⟩ | ⟨-, h⟩ <;> rw [h]
  · obtain ⟨hfifo, hstream, hreply⟩ := sameLink_stall s.countTick
    exact ⟨hfifo, hstream, hreply⟩
  · exact ⟨rfl, rfl, rfl, rfl⟩
  · exact ⟨rfl, rfl, rfl, rfl⟩

theorem sameLink_endOfSend (s : State) : SameLink s s.endOfSend := by
  rcases endOfSend_cases s with ⟨-, h⟩ | ⟨-, h⟩ | ⟨-, h⟩ <;> rw [h] <;> exact ⟨rfl, rfl, rfl, rfl⟩

theorem sendByte_linkMove {s : State} (e : Event) (hs : s.eng = .send) : LinkMove s e s.sendByte := by
  rcases sendByte_cases s with ⟨hlt, h⟩ | ⟨hlast, h⟩ | ⟨-, h⟩ <;> rw [h]
  · exact .push hs (by omega) rfl rfl ⟨rfl, rfl⟩
  · obtain ⟨hfifo, hstream, hreply⟩ := sameLink_endOfSend s.pushNext
    exact .push hs (by omega) hstream hfifo hreply
  · exact .same ⟨rfl, rfl, rfl, rfl⟩

theorem poll_linkMove {s : State} (a : Bool) (hs : s.eng = .recv) : LinkMove s (.engine a) s.poll := by
  rcases poll_cases s with ⟨b, rest, hf, h⟩ | ⟨-, -, h⟩ | ⟨-, -, h⟩
  · exact .pop a rfl hs b rest hf h
  · obtain ⟨hfifo, hstream, hreply⟩ := sameLink_stall s
    rw [h]
    exact .same ⟨hfifo, hstream, hreply⟩
  · rw [h]
    exact .same ⟨rfl, rfl, rfl, rfl⟩

theorem engineStep_linkMove (s : State) (a : Bool) : LinkMove s (.engine a) (s.engineStep a) := by
  rcases engineStep_cases s a with ⟨hs, -, h⟩ | ⟨hs, h⟩ | ⟨-, h⟩ <;> rw [h]
  · exact sendByte_linkMove _ hs
  · exact poll_linkMove a hs
  · exact .same ⟨rfl, rfl, rfl, rfl⟩

/-! ### The Module and the Transport -/

theorem moduleByte_linkMove (s : State) (e : Event) (b : Byte) : LinkMove s e (s.moduleByte b) := by
  rcases moduleByte_cases s b with ⟨-, -, h⟩ | ⟨-, h⟩ | ⟨-, h⟩ <;> rw [h]
  · exact .append b rfl rfl ⟨rfl, rfl⟩
  · exact .same ⟨rfl, rfl, rfl, rfl⟩
  · exact .same ⟨rfl, rfl, rfl, rfl⟩

theorem moduleResume_linkMove (s : State) (e : Event) : LinkMove s e s.moduleResume := by
  rcases moduleResume_cases s with ⟨b, rest, -, -, h⟩ | h <;> rw [h]
  · exact .append b rfl rfl ⟨rfl, rfl⟩
  · exact .same ⟨rfl, rfl, rfl, rfl⟩

theorem transportReset_linkMove (s : State) : LinkMove s .transportReset s.transportReset := by
  rcases transportReset_cases s with ⟨-, h⟩ | ⟨hidle, h⟩
  · rw [h]; exact .same ⟨rfl, rfl, rfl, rfl⟩
  · exact .drain rfl hidle h

/-- Every step is one of these moves. -/
theorem step_linkMove {s t : State} (h : step s = .next t) : LinkMove s.popEvent s.nextEvent t := by
  rcases step_agent_cases h with ⟨-, hm⟩ | ⟨hhost, rfl⟩
  · exact .same hm.sameLink
  · cases he : s.nextEvent with
    | engine a => exact engineStep_linkMove _ a
    | tick => exact .same (sameLink_tick _)
    | moduleByte b => exact moduleByte_linkMove _ _ b
    | moduleResume => exact moduleResume_linkMove _ _
    | transportReset => exact transportReset_linkMove _
    | reset => exact .reset rfl rfl rfl
    | _ => rw [he] at hhost; cases hhost

/-! ### The Engine's poll that takes a byte -/

@[simp] theorem collected_length (s : State) : s.collected.length = s.rxCount.toNat := by
  simp [State.collected, State.rxBytes]

theorem complete_rxFifo (s : State) (p : List Byte) : (s.complete p).rxFifo = s.rxFifo := by
  rcases complete_cases s p with ⟨-, h⟩ | ⟨-, -, h⟩ | ⟨-, -, h⟩ <;> rw [h] <;> rfl

theorem complete_txStream (s : State) (p : List Byte) : (s.complete p).txStream = s.txStream := by
  rcases complete_cases s p with ⟨-, h⟩ | ⟨-, -, h⟩ | ⟨-, -, h⟩ <;> rw [h] <;> rfl

@[simp] theorem receiveByte_rxFifo (s : State) (b : Byte) (rest : List Byte) :
    (s.receiveByte b rest).rxFifo = rest := by
  rcases receiveByte_cases s b rest with ⟨-, h⟩ | ⟨-, h⟩ <;> simp [h, complete_rxFifo]

@[simp] theorem receiveByte_txStream (s : State) (b : Byte) (rest : List Byte) :
    (s.receiveByte b rest).txStream = s.txStream := by
  rcases receiveByte_cases s b rest with ⟨-, h⟩ | ⟨-, h⟩ <;> simp [h, complete_txStream]

/-- A completion leaves the last reply alone, or accepts a 12-byte packet with DONE (40_codec.md R98). -/
theorem complete_reply_cases (s : State) (p : List Byte) :
    sameReply s (s.complete p) ∨
    (p.length = 12 ∧ (s.complete p).eng = .idle ∧ (s.complete p).flags.done = true ∧
      (s.complete p).rxCount = s.rxCount) := by
  rcases complete_cases s p with ⟨-, h⟩ | ⟨-, hlen, h⟩ | ⟨-, -, h⟩ <;> rw [h]
  · exact .inl ⟨rfl, rfl⟩
  · exact .inr ⟨hlen, rfl, rfl, rfl⟩
  · exact .inl ⟨rfl, rfl⟩

/-- A poll that takes a byte leaves the last reply alone, or completes a 12-byte receive with DONE. -/
theorem receiveByte_reply_cases (s : State) (b : Byte) (rest : List Byte) :
    sameReply s (s.receiveByte b rest) ∨
    ((s.receiveByte b rest).eng = .idle ∧ (s.receiveByte b rest).flags.done = true ∧
      (s.receiveByte b rest).rxCount = 12#10) := by
  rcases receiveByte_cases s b rest with ⟨-, h⟩ | ⟨-, h⟩ <;> rw [h]
  · rcases complete_reply_cases (s.takeByte b rest) (s.takeByte b rest).collected with
      hsame | ⟨hlen, heng, hdone, hcount⟩
    · exact .inl (by simpa [sameReply] using hsame)
    · refine .inr ⟨heng, hdone, ?_⟩
      rw [collected_length] at hlen
      rw [nextDraw_rxCount, hcount]
      exact BitVec.eq_of_toNat_eq hlen
  · exact .inl (by simp [sameReply])

/-! ### The obligations -/

theorem sameReply_of_popEvent {s t : State} (h : sameReply s.popEvent t) : sameReply s t := by
  simpa [sameReply] using h

@[simp] theorem busy_popEvent (s : State) : s.popEvent.busy = s.busy := by
  simp [State.busy]

@[simp] theorem txBuf_popEvent (s : State) (i : Nat) : s.popEvent.txBuf i = s.txBuf i := by
  simp [State.txBuf, State.bufByte]

/-- Settles O35: of all moves only a poll that takes a byte can write the last reply, and it does so at an accepted
12-byte packet alone. -/
theorem replyChangesOnlyAtDecode : Obligations.ReplyChangesOnlyAtDecode := by
  intro s t hreset h hchange
  have hchange' : ¬ sameReply s.popEvent t := fun hsame => hchange (sameReply_of_popEvent hsame)
  cases step_linkMove h with
  | same hsame => exact absurd hsame.reply hchange'
  | append _ _ _ hreply => exact absurd hreply hchange'
  | drain _ _ ht => subst ht; exact absurd ⟨rfl, rfl⟩ hchange'
  | reset he => exact absurd he hreset
  | push _ _ _ _ hreply => exact absurd hreply hchange'
  | pop a he hs b rest _ ht =>
    subst ht
    rw [popEvent_eng] at hs
    exact ⟨⟨a, he⟩, hs, (receiveByte_reply_cases _ b rest).resolve_left hchange'⟩

/-- A reset of the Transport while an operation is in progress changes nothing (20_memory.md R65). -/
theorem step_transportReset_of_busy {s t : State} (h : step s = .next t) (hbusy : s.busy = true)
    (he : s.nextEvent = .transportReset) : t = s.popEvent := by
  rcases step_agent_cases h with ⟨hhost, -⟩ | ⟨-, ht⟩
  · rw [he] at hhost; cases hhost
  · rw [ht, he]
    exact if_pos ((busy_popEvent s).trans hbusy)

/-- Settles O36: the moves keep the RX FIFO, append to it, drain it in a reset of the Transport, or pop its oldest byte
in RECV. -/
theorem onlyReceivePopsTheFifo : Obligations.OnlyReceivePopsTheFifo := by
  refine fun s t h => ⟨?_, step_transportReset_of_busy h⟩
  have hkeep (hfifo : t.rxFifo = s.popEvent.rxFifo) : s.rxFifo <+: t.rxFifo := by simp [hfifo]
  cases step_linkMove h with
  | same hsame => exact .inl (hkeep hsame.fifo)
  | append b hfifo => exact .inl ⟨[b], by simp [hfifo]⟩
  | drain he hidle ht => exact .inr (.inl ⟨he, by simpa using hidle, by rw [ht, State.nextDraw, popEvent_draws]⟩)
  | reset _ hfifo => exact .inl (hkeep hfifo)
  | push _ _ _ hfifo => exact .inl (hkeep hfifo)
  | pop a _ hs b rest hfifo ht =>
    rw [popEvent_eng] at hs
    rw [popEvent_rxFifo] at hfifo
    exact .inr (.inr ⟨hs, ⟨b, by rw [ht, receiveByte_rxFifo, hfifo]⟩, fun hinv => hinv.exchangeSent (.inl hs)⟩)

/-- Settles O37: the moves keep the TX stream, or push `TX_BUF[tx_idx]` in SEND. -/
theorem onlySendPushesTheStream : Obligations.OnlySendPushesTheStream := by
  intro s t h
  cases step_linkMove h with
  | same hsame => exact .inl (by simpa using hsame.stream)
  | append _ _ hstream => exact .inl (by simpa using hstream)
  | drain _ _ ht => exact .inl (by simp [ht])
  | reset _ _ hstream => exact .inl (by simpa using hstream)
  | push hs hidx hstream => exact .inr ⟨by simpa using hs, by simpa using hidx, by simpa using hstream⟩
  | pop _ _ _ _ _ _ ht => exact .inl (by simp [ht])

end Sys2Proof.Machine
end

section
/-!
PROOFS. What the host reads in the registers and what its writes leave (10_state.md R21 to R36, R43, 20_memory.md R46),
and how a step takes its event (20_memory.md R59).
-/
namespace Sys2Proof.Machine

/-! ### The words of STATUS, CTRL and INT_EN, bit by bit -/

/-- A 32-bit register word with the given bits from bit 0 on, and 0 above them. -/
def wordOfBits (bs : List Bool) : Word32 := (BitVec.ofBoolListLE bs).setWidth 32

theorem wordOfBits_getLsbD {bs : List Bool} (hlen : bs.length ≤ 32) (k : Nat) :
    (wordOfBits bs).getLsbD k = bs.getD k false := by
  by_cases hk : k < 32
  · simp [wordOfBits, hk]
  · simp [wordOfBits, hk, show bs.length ≤ k by omega]

theorem toNat_wordOfBits (bs : List Bool) :
    (wordOfBits bs).toNat = bs.foldr (fun b n => b.toNat + 2 * n) 0 % 2 ^ 32 := by
  have hvalue : (BitVec.ofBoolListLE bs).toNat = bs.foldr (fun b n => b.toNat + 2 * n) 0 := by
    induction bs with
    | nil => rfl
    | cons b bs ih => simp only [BitVec.ofBoolListLE, BitVec.toNat_concat, List.foldr_cons, ih]; omega
  rw [wordOfBits, BitVec.toNat_setWidth, hvalue]

theorem statusWord_eq_bits (s : State) :
    s.statusWord =
      wordOfBits [s.busy, s.flags.done, s.flags.timeout, s.flags.csumErr, s.flags.busyErr, s.halted, s.ack] := by
  apply BitVec.eq_of_toNat_eq
  simp only [State.statusWord, BitVec.toNat_ofNat, toNat_wordOfBits, List.foldr]
  omega

theorem intEnWord_eq_bits (e : IntEn) :
    intEnWord e = wordOfBits [false, e.doneEn, e.timeoutEn, e.csumErrEn, e.busyErrEn] := by
  apply BitVec.eq_of_toNat_eq
  simp only [intEnWord, BitVec.toNat_ofNat, toNat_wordOfBits, List.foldr, Bool.toNat_false]
  omega

/-- Bits 1 and 2 of a CTRL word are OP (30_encoding.md R80). -/
theorem ctrlReadWord_eq_bits (c : Ctrl) :
    ctrlReadWord c =
      wordOfBits [false, decide (c.op = .recvData ∨ c.op = .recvCmd), decide (c.op = .sendCmd ∨ c.op = .recvCmd),
        c.verify, c.toFatal] := by
  obtain ⟨op, verify, toFatal⟩ := c
  apply BitVec.eq_of_toNat_eq
  cases op <;> simp [ctrlReadWord, ctrlWord, blockOpCode, toNat_wordOfBits] <;> omega

theorem statusWord_getLsbD (s : State) (k : Nat) :
    s.statusWord.getLsbD k =
      [s.busy, s.flags.done, s.flags.timeout, s.flags.csumErr, s.flags.busyErr, s.halted, s.ack].getD k false := by
  rw [statusWord_eq_bits, wordOfBits_getLsbD (by simp)]

theorem intEnWord_getLsbD (e : IntEn) (k : Nat) :
    (intEnWord e).getLsbD k = [false, e.doneEn, e.timeoutEn, e.csumErrEn, e.busyErrEn].getD k false := by
  rw [intEnWord_eq_bits, wordOfBits_getLsbD (by simp)]

theorem ctrlReadWord_getLsbD (c : Ctrl) (k : Nat) :
    (ctrlReadWord c).getLsbD k =
      [false, decide (c.op = .recvData ∨ c.op = .recvCmd), decide (c.op = .sendCmd ∨ c.op = .recvCmd),
        c.verify, c.toFatal].getD k false := by
  rw [ctrlReadWord_eq_bits, wordOfBits_getLsbD (by simp)]

/-- The Engine is not busy and halted at once (10_state.md R23). -/
theorem not_busy_and_halted (s : State) : ¬ (s.busy = true ∧ s.halted = true) := by
  cases h : s.eng <;> simp [State.busy, State.halted, h]

/-- Settles O41, each bit from the list of the bits. -/
theorem statusBits : Obligations.StatusBits := by
  intro s k
  have hbit := statusWord_getLsbD s
  refine ⟨hbit 0, hbit 1, hbit 2, hbit 3, hbit 4, hbit 5, hbit 6, fun hk => ?_, ?_⟩
  · rw [hbit, List.getD_eq_default _ _ hk]
  · rw [hbit 0, hbit 5]
    exact not_busy_and_halted s

/-! ### Register reads and writes -/

/-- A 32-bit read of a register at its offset (20_memory.md R46). -/
theorem memRead_reg (s : State) (r : Reg) : s.memRead (regOffset r) 4 = .data (s.regValue r) := by
  simp [State.memRead]

/-- Settles O40: every register answers its value, and the bits of CTRL and INT_EN are those of their lists. -/
theorem registerReads : Obligations.RegisterReads := by
  intro s
  have hctrl := ctrlReadWord_getLsbD s.ctrl
  have hint := intEnWord_getLsbD s.intEn
  refine ⟨⟨_, memRead_reg s .ctrl, hctrl 0, ?_, ?_, hctrl 3, hctrl 4, fun k hk => ?_⟩, memRead_reg s .status,
    memRead_reg s .cmd, memRead_reg s .param, memRead_reg s .lastParam, memRead_reg s .lastAck,
    memRead_reg s .pollInterval, memRead_reg s .maxPolls, memRead_reg s .stallCount, memRead_reg s .rxCount,
    memRead_reg s .rxCsum, memRead_reg s .txCsum,
    ⟨_, memRead_reg s .intEn, hint 0, hint 1, hint 2, hint 3, hint 4, fun k hk => ?_⟩, memRead_reg s .rxAvail⟩
  · rw [State.regValue, hctrl 1]; simp
  · rw [State.regValue, hctrl 2]; simp
  · rw [State.regValue, hctrl, List.getD_eq_default _ _ hk]
  · rw [State.regValue, hint, List.getD_eq_default _ _ hk]

/-- A register write in IDLE is accepted (20_memory.md R51, R56). -/
theorem wr_of_idle {s : State} (r : Reg) (v : Word32) (h : s.eng = .idle) :
    s.wr r v = (s.writeReg r v).answer .okay := by
  rw [wr_eq, regWrite_unlocked r v ((locked_false_iff s).2 h)]

/-- A write of a register that the lock does not cover is accepted in every phase (20_memory.md R56). -/
theorem wr_of_unlockable (s : State) {r : Reg} (v : Word32) (hr : lockable r = false) :
    s.wr r v = (s.writeReg r v).answer .okay := by
  rw [wr_eq, regWrite_unlockable s v hr]

/-- Settles O49: the writes are accepted, and each changes its own field. -/
theorem configurationWrites : Obligations.ConfigurationWrites := fun s v =>
  ⟨fun hidle => ⟨wr_of_idle .cmd v hidle, wr_of_idle .param v hidle, wr_of_idle .pollInterval v hidle,
    wr_of_idle .maxPolls v hidle⟩, wr_of_unlockable s (r := .intEn) v rfl⟩

/-- Settles O51: CTRL reads 0 by its offset, and every other value is the field's. -/
theorem resetValues : Obligations.ResetValues :=
  ⟨rfl, rfl, rfl, memRead_reg State.reset .ctrl, rfl, rfl, rfl, rfl, rfl, rfl, rfl, rfl, rfl, rfl, rfl, rfl,
    fun _ => rfl, rfl⟩

/-! ### The step -/

/-- A listed host write is the step of its own that makes the oldest pending one. -/
theorem step_hostWrite {s : State} {rest : List Event} (h : s.inputs = .hostWrite :: rest) :
    step s = .next { s with inputs := rest }.hostWrite :=
  step_cons h (deferred_of_no_access h rfl)

/-- An issued instruction runs once no write of an earlier action is pending. -/
theorem step_issue {s : State} {a : HostAction} {i : Instr} {rest : List Event} (h : s.inputs = .issue a :: rest)
    (ha : decodeAction a = .ok i) (hp : s.host.pending = []) : step s = exec i { s with inputs := rest } := by
  rw [step_cons h (deferred_of_no_pending hp)]
  simp [stepEvent, eventInstr, ha]

/-- Settles O6: with no write pending the issued instruction runs, and pending writes come first. -/
theorem stepRunsDecodedInstruction : Obligations.StepRunsDecodedInstruction := by
  refine ⟨fun s a i rest h ha => ⟨step_issue h ha, step_waiting h rfl⟩, fun s rest => step_hostWrite, ?_⟩
  intro s r v later hp
  simp [State.hostWrite, hp]

end Sys2Proof.Machine
end

section
/-!
PROOFS. The host's bus accesses (20_memory.md R44 to R56): which of them the block answers, what the windows read as,
and which writes are ignored or refused.
-/
namespace Sys2Proof.Machine

/-! ### The accesses the block accepts -/

/-- An access gets no ERROR just when its size is legal, its offset mapped and aligned, and a register's size 4
(20_memory.md R48 to R52). -/
theorem accessOk_iff (off n : Nat) :
    accessOk off n = true ↔ (n = 1 ∨ n = 2 ∨ n = 4) ∧
      (off < 0x038 ∨ (0x100 ≤ off ∧ off < 0x110) ∨ (0x200 ≤ off ∧ off < 0x400)) ∧
      off % n = 0 ∧ (0x038 ≤ off ∨ n = 4) := by
  simp [accessOk, sizeOk, mapped, isRegister, isWindow, and_assoc, or_assoc]

theorem isWindow_iff (off : Nat) :
    isWindow off = true ↔ (0x100 ≤ off ∧ off < 0x110) ∨ (0x200 ≤ off ∧ off < 0x400) := by
  simp [isWindow]

/-- An aligned access of a legal size to a buffer window gets no ERROR (20_memory.md R49). -/
theorem accessOk_window {off n : Nat} (hn : n = 1 ∨ n = 2 ∨ n = 4) (ha : off % n = 0) (hw : isWindow off = true) :
    accessOk off n = true := by
  rw [isWindow_iff] at hw
  exact (accessOk_iff off n).2 ⟨hn, .inr hw, ha, .inl (by omega)⟩

/-- No register lies in a buffer window (20_memory.md R46). -/
theorem regAt_window {off : Nat} (hw : isWindow off = true) : regAt off = none := by
  cases hr : regAt off with
  | none => rfl
  | some r => rw [regAt_eq_some hr] at hw; cases r <;> cases hw

theorem memRead_error (s : State) {off n : Nat} (h : accessOk off n = false) : s.memRead off n = .error := by
  simp [State.memRead, h]

theorem memWrite_error (s : State) {off n : Nat} (v : Word32) (h : accessOk off n = false) :
    s.memWrite off n v = s.answer .error := by
  simp [State.memWrite, h]

theorem accessOk_misaligned {off n : Nat} (h : off % n ≠ 0) : accessOk off n = false := by
  rw [Bool.eq_false_iff, ne_eq, accessOk_iff]
  exact fun ⟨_, _, ha, _⟩ => h ha

/-- Settles O43: each of the listed faults breaks one condition of an accepted access. -/
theorem errorResponses : Obligations.ErrorResponses := by
  intro s off n v _ hfault
  have hok : accessOk off n = false := by
    rw [Bool.eq_false_iff, ne_eq, accessOk_iff]
    rintro ⟨hsize, hmapped, haligned, hwide⟩
    omega
  exact ⟨memRead_error s hok, memWrite_error s v hok⟩

/-! ### The buffer windows -/

/-- An accepted read of a window assembles its bytes (20_memory.md R49). -/
theorem memRead_window (s : State) {off n : Nat} (hn : n = 1 ∨ n = 2 ∨ n = 4) (ha : off % n = 0)
    (hw : isWindow off = true) : s.memRead off n = .data (s.windowValue off n) := by
  simp [State.memRead, accessOk_window hn ha hw, regAt_window hw]

theorem windowValue_one (s : State) (off : Nat) : s.windowValue off 1 = (s.windowByte off).setWidth 32 := by
  apply BitVec.eq_of_toNat_eq
  simp [State.windowValue, leValue]

theorem windowValue_two (s : State) (off : Nat) :
    s.windowValue off 2 = (le16 (s.windowByte off) (s.windowByte (off + 1))).setWidth 32 := by
  apply BitVec.eq_of_toNat_eq
  have := (s.windowByte off).isLt
  have := (s.windowByte (off + 1)).isLt
  simp [State.windowValue, le16, leValue, List.range_succ]
  omega

theorem windowValue_four (s : State) (off : Nat) :
    s.windowValue off 4 =
      le32 (s.windowByte off) (s.windowByte (off + 1)) (s.windowByte (off + 2)) (s.windowByte (off + 3)) := rfl

/-- The bytes of the RX_BUF window: RX_BUF, then the pad (20_memory.md R46, R49). -/
theorem windowByte_rx (s : State) {j : Nat} (hj : j < 512) :
    s.windowByte (0x200 + j) = if j < 504 then s.rxBuf j else 0#8 := by
  have hbuf : isBuffer (0x200 + j) = true ↔ j < 504 := by rw [isBuffer_iff]; omega
  simp only [State.windowByte, hbuf]
  rfl

/-- The bytes of the TX_BUF window: TX_BUF, then the pad (20_memory.md R46, R49). -/
theorem windowByte_tx (s : State) {j : Nat} (hj : j < 16) :
    s.windowByte (0x100 + j) = if j < 12 then s.txBuf j else 0#8 := by
  have hbuf : isBuffer (0x100 + j) = true ↔ j < 12 := by rw [isBuffer_iff]; omega
  simp only [State.windowByte, hbuf]
  rfl

/-- Aligned reads of a window whose bytes are `f 0`, `f 1` and so on (20_memory.md R49). -/
theorem memRead_windowBytes (s : State) {base size : Nat} (f : Nat → Byte) (hbase : base % 4 = 0)
    (hsize : size % 4 = 0) (hwin : ∀ j, j < size → isWindow (base + j) = true)
    (hbyte : ∀ j, j < size → s.windowByte (base + j) = f j) (j : Nat) :
    (j < size → s.memRead (base + j) 1 = .data ((f j).setWidth 32)) ∧
    (j < size → j % 2 = 0 → s.memRead (base + j) 2 = .data ((le16 (f j) (f (j + 1))).setWidth 32)) ∧
    (j < size → j % 4 = 0 → s.memRead (base + j) 4 = .data (le32 (f j) (f (j + 1)) (f (j + 2)) (f (j + 3)))) := by
  refine ⟨fun hj => ?_, fun hj ha => ?_, fun hj ha => ?_⟩
  · rw [memRead_window s (.inl rfl) (Nat.mod_one _) (hwin j hj), windowValue_one, hbyte j hj]
  · rw [memRead_window s (.inr (.inl rfl)) (by omega) (hwin j hj), windowValue_two, Nat.add_assoc, hbyte j hj,
      hbyte (j + 1) (by omega)]
  · rw [memRead_window s (.inr (.inr rfl)) (by omega) (hwin j hj), windowValue_four, Nat.add_assoc, Nat.add_assoc,
      Nat.add_assoc, hbyte j hj, hbyte (j + 1) (by omega), hbyte (j + 2) (by omega), hbyte (j + 3) (by omega)]

/-- Settles O42: an aligned read assembles bytes of one window, and a misaligned one is refused. -/
theorem windowReads : Obligations.WindowReads := by
  intro s j rx tx
  obtain ⟨hrx1, hrx2, hrx4⟩ := memRead_windowBytes s (base := 0x200) (size := 512) rx rfl rfl
    (fun j hj => (isWindow_iff _).2 (by omega)) (fun j => windowByte_rx s) j
  obtain ⟨htx1, htx2, htx4⟩ := memRead_windowBytes s (base := 0x100) (size := 16) tx rfl rfl
    (fun j hj => (isWindow_iff _).2 (by omega)) (fun j => windowByte_tx s) j
  refine ⟨hrx1, hrx2, hrx4, htx1, htx2, htx4, fun ha => ⟨?_, ?_⟩, fun ha => ⟨?_, ?_⟩⟩ <;>
    exact memRead_error s (accessOk_misaligned (by omega))

/-! ### The block's window, and reads -/

/-- Settles O44, by which addresses have an offset in the block's window. -/
theorem blockAnswersItsWindow : Obligations.BlockAnswersItsWindow := by
  intro s addr n v
  refine ⟨fun off hoff haddr => ?_, fun hout => ?_⟩
  · have hin : windowOffset s.platform.framerBase addr = some off := by
      simp [windowOffset, haddr, hoff]
    simp [State.busRead, State.busWrite, hin, State.answer]
  · have hnone : windowOffset s.platform.framerBase addr = none := by
      simp only [windowOffset, Config.windowSize]
      rw [if_neg (by omega)]
    simp [State.busRead, State.busWrite, hnone, State.answer]

/-- What a read answers does not depend on the last response. -/
@[simp] theorem memRead_answer (s : State) (r : BusResponse) (off n : Nat) :
    (s.answer r).memRead off n = s.memRead off n := rfl

/-- Settles O45: a read only answers, and the answer does not depend on the last one. -/
theorem readsHaveNoSideEffect : Obligations.ReadsHaveNoSideEffect := by
  intro s addr n
  refine ⟨busRead_eq_answer s addr n, ?_⟩
  cases h : windowOffset s.platform.framerBase addr <;> simp [State.busRead, h] <;> rfl

/-! ### Register writes -/

/-- Write-1-to-clear, bit by bit (20_memory.md R54). -/
theorem clearFlags_eq (v : Word32) (f : Flags) :
    clearFlags v f =
      { done := if v.getLsbD 1 then false else f.done, timeout := if v.getLsbD 2 then false else f.timeout,
        csumErr := if v.getLsbD 3 then false else f.csumErr, busyErr := if v.getLsbD 4 then false else f.busyErr } := by
  have hbit (b c : Bool) : (b && !c) = if c then false else b := by cases c <;> simp
  simp only [clearFlags, hbit]

/-- Settles O46: the lock does not cover STATUS. -/
theorem statusWriteClearsOnes : Obligations.StatusWriteClearsOnes := by
  intro s v
  rw [wr_of_unlockable s v rfl, ← clearFlags_eq]
  rfl

/-- A locked block refuses a write of a configuration register as a whole (20_memory.md R56). -/
theorem wr_of_locked {s : State} {r : Reg} (v : Word32) (h : s.eng ≠ .idle) (hr : lockable r = true) :
    s.wr r v = refusedWrite s := by
  rw [wr_eq, regWrite_locked v ((locked_iff s).2 h) hr]
  rfl

/-- Settles O48: the lock covers the five configuration registers and no other. -/
theorem lockRefusesConfigurationWrites : Obligations.LockRefusesConfigurationWrites := by
  intro s v h
  refine ⟨wr_of_locked v h rfl, wr_of_locked v h rfl, wr_of_locked v h rfl, wr_of_locked v h rfl,
    wr_of_locked v h rfl, ?_, ?_⟩
  · rw [wr_of_unlockable s v rfl]; rfl
  · rw [wr_of_unlockable s v rfl]; rfl

/-- Two words with the same effect on a register write it alike, locked or not. -/
theorem wr_congr (s : State) (r : Reg) {v w : Word32} (h : s.writeReg r v = s.writeReg r w) : s.wr r v = s.wr r w := by
  simp only [wr_eq, State.regWrite, h]

/-- A CTRL write depends on START and the stored fields of the word alone. -/
theorem wr_ctrl_congr (s : State) {v w : Word32} (hstart : ctrlStart v = ctrlStart w) (hfields : ctrlOf v = ctrlOf w) :
    s.wr .ctrl v = s.wr .ctrl w :=
  wr_congr s .ctrl (by simp only [State.writeReg, State.writeCtrl, State.setCtrl, hstart, hfields])

/-- Two words that agree in bits 4:0 have the same CTRL fields (10_state.md R21). -/
theorem ctrlOf_congr {v w : Word32} (h : ∀ k, k < 5 → v.getLsbD k = w.getLsbD k) : ctrlOf v = ctrlOf w := by
  simp only [ctrlOf, ctrlOp, ctrlPolicy, h 1 (by decide), h 2 (by decide), h 3 (by decide), h 4 (by decide)]

/-- A write to a buffer window is answered OKAY and ignored (20_memory.md R55). -/
theorem memWrite_window (s : State) {off n : Nat} (v : Word32) (hn : n = 1 ∨ n = 2 ∨ n = 4) (ha : off % n = 0)
    (hw : isWindow off = true) : s.memWrite off n v = s.answer .okay := by
  simp [State.memWrite, accessOk_window hn ha hw, regAt_window hw]

/-- Settles O47: a read-only register or a window takes no write, and every other register reads only the bits of its
fields. -/
theorem readOnlyWritesAreIgnored : Obligations.ReadOnlyWritesAreIgnored := by
  intro s v
  have hctrl (k : Nat) (hk : k < 5) : v.getLsbD k = (v &&& 0x1F#32).getLsbD k := by
    interval_cases k <;> simp
  have hlow : v.setWidth 16 = (v &&& 0xFFFF#32).setWidth 16 := by
    rw [BitVec.setWidth_and]
    exact BitVec.and_allOnes.symm
  refine ⟨fun r hr => ?_, fun off n hn ha hw => memWrite_window s v hn ha ((isWindow_iff off).2 hw),
    wr_ctrl_congr s (hctrl 0 (by decide)) (ctrlOf_congr hctrl), wr_congr s .status ?_, wr_congr s .cmd ?_,
    wr_congr s .pollInterval ?_, wr_congr s .maxPolls ?_, wr_congr s .intEn ?_⟩
  · rcases hr with rfl | rfl | rfl | rfl | rfl | rfl | rfl <;> exact wr_of_unlockable s v rfl
  · simp [State.writeReg, State.clearStatus, clearFlags]
  · simp only [State.writeReg, ← hlow]
  · simp only [State.writeReg, ← hlow]
  · simp only [State.writeReg, ← hlow]
  · simp [State.writeReg, intEnOf]

end Sys2Proof.Machine
end

section
/-!
PROOFS. What the instructions do (30_encoding.md R79 to R86, 41_link_operations.md R105, 42_protocol_commands.md R124 to
R137): the bus writes they make, the launch in an idle block, the refusal in a locked one, and their frame.
-/
namespace Sys2Proof.Machine

/-! ### The fields of a CTRL word -/

theorem ctrlWord_getLsbD (start : Bool) (op : BlockOp) (pol : Policy) (k : Nat) :
    (ctrlWord start op pol).getLsbD k =
      [start, decide (op = .recvData ∨ op = .recvCmd), decide (op = .sendCmd ∨ op = .recvCmd), pol.verify,
        pol.toFatal].getD k false := by
  rw [← wordOfBits_getLsbD (by simp)]
  congr 1
  apply BitVec.eq_of_toNat_eq
  cases op <;> simp [ctrlWord, blockOpCode, toNat_wordOfBits] <;> omega

@[simp] theorem ctrlStart_ctrlWord (start : Bool) (op : BlockOp) (pol : Policy) :
    ctrlStart (ctrlWord start op pol) = start := ctrlWord_getLsbD start op pol 0

@[simp] theorem ctrlOp_ctrlWord (start : Bool) (op : BlockOp) (pol : Policy) :
    ctrlOp (ctrlWord start op pol) = op := by
  rw [ctrlOp, ctrlWord_getLsbD, ctrlWord_getLsbD]
  cases op <;> rfl

@[simp] theorem ctrlPolicy_ctrlWord (start : Bool) (op : BlockOp) (pol : Policy) :
    ctrlPolicy (ctrlWord start op pol) = pol := by
  rw [ctrlPolicy, ctrlWord_getLsbD, ctrlWord_getLsbD]
  rfl

@[simp] theorem ctrlOf_ctrlWord (start : Bool) (op : BlockOp) (pol : Policy) :
    ctrlOf (ctrlWord start op pol) = { op := op, verify := pol.verify, toFatal := pol.toFatal } := by
  simp [ctrlOf]

/-! ### Decoding -/

/-- A block operation is the CTRL write of its word (30_encoding.md R80). -/
theorem encode_blockInstr (op : BlockOp) (pol : Policy) :
    encode (blockInstr op pol) = .ctrl (ctrlWord true op pol) := by
  cases op <;> rfl

/-- The launch read from a launch word keeps its OP and policy bits. -/
theorem launchOf_eq_some {w : Word32} {l : Launch} (h : launchOf w = some l) :
    launchOp l = ctrlOp w ∧ l.policy = ctrlPolicy w := by
  unfold launchOf at h
  split at h <;> cases h <;> simp [launchOp, *]

/-- A command's encoding has the opcode and the parameter it was decoded from (30_encoding.md R84). -/
theorem commandInstr_eq_ok {c : Word16} {p : Word32} {l : Launch} {i : Instr} (h : commandInstr c p l = .ok i) :
    encode i = .command c p (launchWord l) := by
  have hc {n : Nat} (hn : c.toNat = n) : BitVec.ofNat 16 n = c := by simp [← hn]
  have hp {n : Nat} (hn : p.toNat = n) : BitVec.ofNat 32 n = p := by simp [← hn]
  unfold commandInstr at h
  split at h
  case h_3 hn =>
    split at h
    case h_1 hn' => cases h; simp only [encode, ← hc hn, ← hp hn']
    case h_2 hn' => cases h; simp only [encode, ← hc hn, ← hp hn']
    case h_3 => cases h
  case h_13 => cases h
  all_goals
    rename_i hn
    cases h
    simp only [encode, ← hc hn]

/-- Settles O3: the decoded instruction's own words differ from the given ones at most in bits that a launch ignores. -/
theorem decodedActionMakesItsBusWrites : Obligations.DecodedActionMakesItsBusWrites := by
  intro a i s h
  rw [exec_eq]
  congr 1
  cases a with
  | ctrl w =>
    cases hstart : ctrlStart w with
    | false => simp [decodeAction, hstart] at h
    | true =>
      simp only [decodeAction, hstart, if_true, Except.ok.injEq] at h
      rw [← h, encode_blockInstr]
      exact wr_ctrl_congr s (by simp [hstart]) (by simp [ctrlOf])
  | command c p w =>
    cases hl : launchOf w with
    | none => simp [decodeAction, hl] at h
    | some l =>
      obtain ⟨hop, hpol⟩ := launchOf_eq_some hl
      simp only [decodeAction, hl] at h
      rw [commandInstr_eq_ok h]
      simp [State.perform, State.command, commandWrites, launchWord, hop, hpol]

/-! ### The launch in an idle block -/

/-- A CTRL write with START in an idle block sets the fields and launches (20_memory.md R51,
41_link_operations.md R105). -/
theorem wr_ctrl_start {s : State} (op : BlockOp) (pol : Policy) (h : s.eng = .idle) :
    s.wr .ctrl (ctrlWord true op pol) =
      (State.launch { s with ctrl := { op := op, verify := pol.verify, toFatal := pol.toFatal } }).answer .okay := by
  simp [wr_of_idle _ _ h, State.writeReg, State.writeCtrl, State.setCtrl]

theorem wr_ctrl_launchedSend {s : State} {op : BlockOp} (pol : Policy) (hop : encodes op = true) (h : s.eng = .idle) :
    s.wr .ctrl (ctrlWord true op pol) = launchedSend op pol s.cmd s.param s := by
  rw [wr_ctrl_start op pol h]
  cases op with
  | exchange | sendCmd => rfl
  | recvData | recvCmd => cases hop

theorem wr_ctrl_launchedRecv {s : State} {op : BlockOp} (pol : Policy) (hop : encodes op = false) (h : s.eng = .idle) :
    s.wr .ctrl (ctrlWord true op pol) = launchedRecv op pol s := by
  rw [wr_ctrl_start op pol h]
  cases op with
  | exchange | sendCmd => cases hop
  | recvData | recvCmd => rfl

theorem commandWrites_launchWord (p : Word32) (l : Launch) :
    commandWrites p (launchWord l) = [(.param, p), (.ctrl, launchWord l)] := by
  simp [commandWrites, launchWord]

theorem encodes_launchOp (l : Launch) : encodes (launchOp l) = true := by
  cases h : l.sendOnly <;> simp [launchOp, h, encodes]

/-- A command in an idle block writes CMD, and PARAM and CTRL are pending (42_protocol_commands.md R124). -/
theorem command_of_idle {s : State} (c : Word16) (p : Word32) (l : Launch) (h : s.eng = .idle) :
    s.command c p (launchWord l) = commandStarted c p l s := by
  rw [State.command, wr_of_idle _ _ h, commandWrites_launchWord, State.writeReg,
    BitVec.setWidth_setWidth_of_le _ (by decide), BitVec.setWidth_eq]
  rfl

/-- The oldest pending write is made as a write of its own step. -/
theorem hostWrite_cons {s : State} {r : Reg} {v : Word32} {later : List (Reg × Word32)}
    (h : s.host.pending = (r, v) :: later) :
    s.hostWrite = { s with host := { s.host with pending := later } }.wr r v := by
  simp [State.hostWrite, h]

theorem hostWrite_of_no_pending {s : State} (h : s.host.pending = []) : s.hostWrite = s := by
  simp [State.hostWrite, h]

theorem hostWrite_hostWrite_of_no_pending {s : State} (h : s.host.pending = []) : s.hostWrite.hostWrite = s := by
  rw [hostWrite_of_no_pending h, hostWrite_of_no_pending h]

/-- The two further writes of a command launch its operation (42_protocol_commands.md R124). -/
theorem commandStarted_launches {s : State} (c : Word16) (p : Word32) (l : Launch) (h : s.eng = .idle)
    (hpend : s.host.pending = []) :
    (commandStarted c p l s).hostWrite.hostWrite = launchedSend (launchOp l) l.policy c p s := by
  have hfirst : (commandStarted c p l s).hostWrite =
      { commandStarted c p l s with
        param := p, host := { s.host with bus := .okay, pending := [(.ctrl, launchWord l)] } } :=
    (hostWrite_cons (by simp only [commandStarted, hpend]; rfl)).trans (wr_of_idle .param p h)
  rw [hfirst, hostWrite_cons rfl]
  refine (wr_ctrl_launchedSend l.policy (encodes_launchOp l) ?_).trans ?_
  · exact h
  · simp only [launchedSend, commandStarted, hpend]

/-- Settles O9: the commands differ in their opcode and parameter alone. -/
theorem sessionAndLedCommandsLaunch : Obligations.SessionAndLedCommandsLaunch := fun p l _ h =>
  have hexec (c : Word16) (p : Word32) := congrArg Host.Outcome.next (command_of_idle c p l h)
  ⟨hexec 0x0001 p, hexec 0x0002 p, hexec 0x0012 1, hexec 0x0012 0,
    fun hpend c q => commandStarted_launches c q l h hpend⟩

/-- Settles O10, as O9 with the opcodes of the enroll commands. -/
theorem enrollCommandsLaunch : Obligations.EnrollCommandsLaunch := fun p l _ h =>
  have hexec (c : Word16) := congrArg Host.Outcome.next (command_of_idle c p l h)
  ⟨hexec 0x0022, hexec 0x0023, hexec 0x0024, hexec 0x0025, fun hpend c q => commandStarted_launches c q l h hpend⟩

/-- Settles O11, as O9 with the opcodes of the finger and database commands. -/
theorem fingerAndDatabaseCommandsLaunch : Obligations.FingerAndDatabaseCommandsLaunch := fun p l _ h =>
  have hexec (c : Word16) := congrArg Host.Outcome.next (command_of_idle c p l h)
  ⟨hexec 0x0026, hexec 0x0040, hexec 0x0041, hexec 0x0051, hexec 0x0060,
    fun hpend c q => commandStarted_launches c q l h hpend⟩

/-! ### What every instruction does -/

/-- An instruction is a CTRL write with START, or the three writes of a command that sends (30_encoding.md R79, R84). -/
theorem encode_cases (i : Instr) :
    (∃ op pol, i.opcode = none ∧ i.sends = encodes op ∧ encode i = .ctrl (ctrlWord true op pol)) ∨
    (∃ c p l, i.opcode = some c ∧ i.sends = true ∧ encode i = .command c p (launchWord l)) := by
  cases i with
  | exchange pol | recvData pol | sendCmd pol | recvCmd pol => exact .inl ⟨_, pol, rfl, rfl, rfl⟩
  | _ => exact .inr ⟨_, _, _, rfl, rfl, rfl⟩

/-- Everything an instruction can do in an idle block: launch an operation, or begin a command. -/
theorem exec_idle_cases (i : Instr) {s : State} (h : s.eng = .idle) :
    (∃ op pol, i.opcode = none ∧ i.sends = true ∧ exec i s = .next (launchedSend op pol s.cmd s.param s)) ∨
    (∃ op pol, i.opcode = none ∧ i.sends = false ∧ exec i s = .next (launchedRecv op pol s)) ∨
    (∃ c p l, i.opcode = some c ∧ i.sends = true ∧ exec i s = .next (commandStarted c p l s)) := by
  rw [exec_eq]
  rcases encode_cases i with ⟨op, pol, hcode, hsends, henc⟩ | ⟨c, p, l, hcode, hsends, henc⟩ <;> rw [henc]
  · cases hop : encodes op with
    | true =>
      exact .inl ⟨op, pol, hcode, hsends.trans hop, congrArg _ (wr_ctrl_launchedSend pol hop h)⟩
    | false =>
      exact .inr (.inl ⟨op, pol, hcode, hsends.trans hop, congrArg _ (wr_ctrl_launchedRecv pol hop h)⟩)
  · exact .inr (.inr ⟨c, p, l, hcode, hsends, congrArg _ (command_of_idle c p l h)⟩)

/-! ### The refusal in a locked block -/

@[simp] theorem pend_nil (s : State) : s.pend [] = s := by
  simp [State.pend]

/-- A locked block refuses a pending write of a configuration register too, and the later ones stay pending. -/
theorem hostWrite_pend_refusedWrite {s : State} {r : Reg} {v : Word32} {later : List (Reg × Word32)}
    (h : s.eng ≠ .idle) (hr : lockable r = true) (hpend : s.host.pending = []) :
    ((refusedWrite s).pend ((r, v) :: later)).hostWrite = (refusedWrite s).pend later := by
  rw [hostWrite_cons (by rw [pend_host, refusedWrite, hpend]; rfl)]
  refine (wr_of_locked v ?_ hr).trans ?_
  · exact h
  · simp only [refusedWrite, State.pend, hpend, List.nil_append]

/-- Settles O12: the instruction's writes are of CTRL, or of CMD, PARAM and CTRL, and the lock covers the three. -/
theorem lockedBlockRefusesInstructions : Obligations.LockedBlockRefusesInstructions := by
  intro i s h
  rw [exec_eq]
  rcases encode_cases i with ⟨op, pol, hcode, -, henc⟩ | ⟨c, p, l, hcode, -, henc⟩ <;> rw [henc]
  · refine ⟨[], ?_, fun _ => rfl, ?_⟩ <;> rw [pend_nil]
    · exact congrArg _ (wr_of_locked _ h rfl)
    · exact hostWrite_hostWrite_of_no_pending (s := refusedWrite s)
  · refine ⟨commandWrites p (launchWord l), ?_, by simp [hcode], fun hpend => ?_⟩
    · rw [← wr_of_locked (r := .cmd) (c.setWidth 32) h rfl]
      rfl
    · rw [commandWrites_launchWord, hostWrite_pend_refusedWrite h rfl hpend, hostWrite_pend_refusedWrite h rfl hpend,
        pend_nil]

/-! ### The frame -/

/-- In an idle block the frame allows that nothing changes. -/
theorem instrFrame_self (i : Instr) {s : State} (h : s.eng = .idle) : InstrFrame i s s where
  reply := ⟨rfl, rfl⟩
  rxCsum := rfl
  pollInterval := rfl
  maxPolls := rfl
  intEn := rfl
  sleepLeft := rfl
  transport := ⟨rfl, rfl, rfl, rfl⟩
  host := ⟨rfl, rfl, rfl, rfl, rfl, rfl, rfl⟩
  busyErr := (if_pos h).symm
  bytes := fun _ _ => rfl
  blockOperation := fun _ => ⟨rfl, rfl, rfl⟩
  receive := fun _ => ⟨rfl, rfl, rfl⟩
  lockedBlock := fun hlock => absurd h hlock

/-- The launch of an operation that sends stores TX_BUF alone. -/
theorem instrFrame_launchedSend {i : Instr} {s : State} (op : BlockOp) (pol : Policy) {c : Word16} {p : Word32}
    (h : s.eng = .idle) (hsends : i.sends = true) (hkeep : i.opcode = none → c = s.cmd ∧ p = s.param) :
    InstrFrame i s (launchedSend op pol c p s) :=
  { instrFrame_self i h with
    bytes := fun a ha => Memory.read_writeAll_outside _ _ _ (by rw [encodeCommand_length]; unfold inTxBuf at ha; omega)
    blockOperation := fun hcode => ⟨(hkeep hcode).1, (hkeep hcode).2, rfl⟩
    receive := fun hrecv => absurd (hsends.symm.trans hrecv) nofun
    lockedBlock := fun hlock => absurd h hlock }

/-- The launch of a receive stores nothing. -/
theorem instrFrame_launchedRecv (i : Instr) {s : State} (op : BlockOp) (pol : Policy) (h : s.eng = .idle) :
    InstrFrame i s (launchedRecv op pol s) :=
  { instrFrame_self i h with lockedBlock := fun hlock => absurd h hlock }

/-- The first write of a command in an idle block changes CMD alone. -/
theorem instrFrame_commandStarted {i : Instr} {s : State} (c : Word16) (p : Word32) (l : Launch) (h : s.eng = .idle)
    (hcode : i.opcode ≠ none) : InstrFrame i s (commandStarted c p l s) :=
  { instrFrame_self i h with
    blockOperation := fun hnone => absurd hnone hcode
    lockedBlock := fun hlock => absurd h hlock }

/-- A refused instruction sets BUSYERR and leaves at most further writes. -/
theorem instrFrame_refusedWrite {i : Instr} {s : State} {later : List (Reg × Word32)} (h : s.eng ≠ .idle)
    (hlater : i.opcode = none → later = []) : InstrFrame i s ((refusedWrite s).pend later) where
  reply := ⟨rfl, rfl⟩
  rxCsum := rfl
  pollInterval := rfl
  maxPolls := rfl
  intEn := rfl
  sleepLeft := rfl
  transport := ⟨rfl, rfl, rfl, rfl⟩
  host := ⟨rfl, rfl, rfl, rfl, rfl, rfl, rfl⟩
  busyErr := (if_neg h).symm
  bytes := fun _ _ => rfl
  blockOperation := fun hcode => by rw [hlater hcode, pend_nil]; exact ⟨rfl, rfl, rfl⟩
  receive := fun _ => ⟨rfl, rfl, rfl⟩
  lockedBlock := fun _ => ⟨rfl, rfl, rfl, rfl, rfl, rfl⟩

/-- Settles O14: an instruction launches, begins a command, or is refused, and each keeps the frame. -/
theorem instructionFrame : Obligations.InstructionFrame := by
  intro i s t ht
  by_cases h : s.eng = .idle
  · rcases exec_idle_cases i h with ⟨op, pol, hcode, hsends, he⟩ | ⟨op, pol, hcode, -, he⟩ |
      ⟨c, p, l, hcode, hsends, he⟩ <;> rw [he] at ht <;> cases ht
    · have hframe := instrFrame_launchedSend op pol h hsends (fun _ => ⟨rfl, rfl⟩)
      refine ⟨hframe, fun hpend => ?_, fun hne => absurd hcode hne⟩
      rwa [hostWrite_hostWrite_of_no_pending (s := launchedSend _ _ _ _ _) hpend]
    · have hframe := instrFrame_launchedRecv i op pol h
      refine ⟨hframe, fun hpend => ?_, fun hne => absurd hcode hne⟩
      rwa [hostWrite_hostWrite_of_no_pending (s := launchedRecv _ _ _) hpend]
    · have hne : i.opcode ≠ none := by simp [hcode]
      refine ⟨instrFrame_commandStarted c p l h hne, fun hpend => ?_,
        fun _ => ⟨rfl, rfl, rfl, rfl, rfl, rfl, rfl, rfl⟩⟩
      rw [commandStarted_launches c p l h hpend]
      exact instrFrame_launchedSend _ _ h hsends (fun hnone => absurd hnone hne)
  · obtain ⟨later, he, hlater, hrefused⟩ := lockedBlockRefusesInstructions i s h
    rw [he] at ht
    cases ht
    refine ⟨instrFrame_refusedWrite h hlater, fun hpend => ?_,
      fun _ => ⟨rfl, rfl, rfl, rfl, rfl, rfl, rfl, rfl⟩⟩
    rw [hrefused hpend, ← pend_nil (refusedWrite s)]
    exact instrFrame_refusedWrite h (fun _ => rfl)

end Sys2Proof.Machine
end

section
/-!
PROOFS. The poll that takes a byte (41_link_operations.md R113), and what no step changes while the block is locked
(20_memory.md R56).
-/
namespace Sys2Proof.Machine

/-! ### The poll that takes a byte -/

/-- Settles O24: the byte is stored and counted, and the packet is not complete. -/
theorem pollTakesOneByte : Obligations.PollTakesOneByte := by
  intro s accept b rest hs hf hk hlen
  have hpartial : (s.takeByte b rest).packetComplete = false := by
    simpa [State.packetComplete, rxCount_succ (show s.rxCount.toNat < 504 by omega)] using hlen
  have hpoll : s.engineStep accept = s.receiveByte b rest := by
    simp [State.engineStep, State.poll, hs, hf]
  have hreceive : s.receiveByte b rest = (s.takeByte b rest).nextDraw := by
    simp [State.receiveByte, hpartial]
  rw [hpoll, hreceive, takeByte_eq b rest (by omega)]
  rfl

/-! ### The inputs of an operation in flight -/

/-- A register write to a locked block leaves the configuration registers alone. -/
theorem sameInputs_regWrite {s : State} (r : Reg) (v : Word32) (hs : s.eng ≠ .idle) :
    sameInputs s (s.regWrite r v) := by
  rcases regWrite_cases s r v with ⟨-, -, h⟩ | ⟨hfree, h⟩ <;> rw [h]
  · exact ⟨rfl, rfl, rfl, rfl, rfl⟩
  · have hr : lockable r = false := hfree.resolve_left (by simp [(locked_iff s).2 hs])
    cases r with
    | ctrl | cmd | param | pollInterval | maxPolls => cases hr
    | _ => exact ⟨rfl, rfl, rfl, rfl, rfl⟩

theorem HostMove.sameInputs {s t : State} (h : HostMove s t) (hs : s.eng ≠ .idle) : sameInputs s t := by
  cases h with
  | own h d => exact ⟨rfl, rfl, rfl, rfl, rfl⟩
  | write r v before after d => exact sameInputs_regWrite (s := { s with host := before }) r v hs

theorem sameInputs_stall (s : State) : sameInputs s s.stall := by
  rcases stall_cases s with ⟨-, h⟩ | ⟨-, h⟩ <;> rw [h] <;> exact ⟨rfl, rfl, rfl, rfl, rfl⟩

theorem sameInputs_tick (s : State) : sameInputs s s.tick := by
  rcases tick_cases s with ⟨-, -, h⟩ | ⟨-, -, h⟩ | ⟨-, h⟩ <;> rw [h]
  · exact sameInputs_stall s.countTick
  · exact ⟨rfl, rfl, rfl, rfl, rfl⟩
  · exact ⟨rfl, rfl, rfl, rfl, rfl⟩

theorem sameInputs_endOfSend (s : State) : sameInputs s s.endOfSend := by
  rcases endOfSend_cases s with ⟨-, h⟩ | ⟨-, h⟩ | ⟨-, h⟩ <;> rw [h] <;> exact ⟨rfl, rfl, rfl, rfl, rfl⟩

theorem sameInputs_sendByte (s : State) : sameInputs s s.sendByte := by
  rcases sendByte_cases s with ⟨-, h⟩ | ⟨-, h⟩ | ⟨-, h⟩ <;> rw [h]
  · exact ⟨rfl, rfl, rfl, rfl, rfl⟩
  · exact sameInputs_endOfSend s.pushNext
  · exact ⟨rfl, rfl, rfl, rfl, rfl⟩

theorem sameInputs_complete (s : State) (p : List Byte) : sameInputs s (s.complete p) := by
  rcases complete_cases s p with ⟨-, h⟩ | ⟨-, -, h⟩ | ⟨-, -, h⟩ <;> rw [h] <;> exact ⟨rfl, rfl, rfl, rfl, rfl⟩

theorem sameInputs_receiveByte (s : State) (b : Byte) (rest : List Byte) : sameInputs s (s.receiveByte b rest) := by
  rcases receiveByte_cases s b rest with ⟨-, h⟩ | ⟨-, h⟩ <;> rw [h]
  · simpa [sameInputs] using sameInputs_complete (s.takeByte b rest) (s.takeByte b rest).collected
  · simp [sameInputs]

theorem sameInputs_poll (s : State) : sameInputs s s.poll := by
  rcases poll_cases s with ⟨b, rest, -, h⟩ | ⟨-, -, h⟩ | ⟨-, -, h⟩ <;> rw [h]
  · exact sameInputs_receiveByte s b rest
  · exact sameInputs_stall s
  · exact ⟨rfl, rfl, rfl, rfl, rfl⟩

theorem sameInputs_engineStep (s : State) (accept : Bool) : sameInputs s (s.engineStep accept) := by
  rcases engineStep_cases s accept with ⟨-, -, h⟩ | ⟨-, h⟩ | ⟨-, h⟩ <;> rw [h]
  · exact sameInputs_sendByte s
  · exact sameInputs_poll s
  · exact ⟨rfl, rfl, rfl, rfl, rfl⟩

theorem sameInputs_moduleByte (s : State) (b : Byte) : sameInputs s (s.moduleByte b) := by
  rcases moduleByte_cases s b with ⟨-, -, h⟩ | ⟨-, h⟩ | ⟨-, h⟩ <;> rw [h] <;> exact ⟨rfl, rfl, rfl, rfl, rfl⟩

theorem sameInputs_moduleResume (s : State) : sameInputs s s.moduleResume := by
  rcases moduleResume_cases s with ⟨b, rest, -, -, h⟩ | h <;> rw [h] <;> exact ⟨rfl, rfl, rfl, rfl, rfl⟩

theorem sameInputs_transportReset (s : State) : sameInputs s s.transportReset := by
  simp [sameInputs]

/-- Settles O34: a write of the host is refused by the lock, and the other agents write none of the five registers. -/
theorem lockedInputsStayConstant : Obligations.LockedInputsStayConstant := by
  intro s t hs hreset h
  suffices hpop : sameInputs s.popEvent t by simpa [sameInputs] using hpop
  rcases step_agent_cases h with ⟨-, hm⟩ | ⟨hhost, rfl⟩
  · exact hm.sameInputs (by rwa [popEvent_eng])
  · cases he : s.nextEvent with
    | engine a => exact sameInputs_engineStep _ a
    | tick => exact sameInputs_tick _
    | moduleByte b => exact sameInputs_moduleByte _ b
    | moduleResume => exact sameInputs_moduleResume _
    | transportReset => exact sameInputs_transportReset _
    | reset => exact absurd he hreset
    | _ => rw [he] at hhost; cases hhost

end Sys2Proof.Machine
end

section
/-!
PROOFS. The retrieval of the template by the reference driver (43_host_sequences.md R144, R150).
-/
namespace Sys2Proof.Machine

/-! ### What the driver reads -/

/-- A register read answers its value (20_memory.md R46). -/
theorem rd_eq (s : State) (r : Reg) : s.rd r = s.answer (.data (s.regValue r)) := by
  rw [State.rd, memRead_reg]

/-- An 8-bit read of RX_BUF answers its byte (20_memory.md R49). -/
theorem memRead_rxBuf (s : State) {j : Nat} (hj : j < 504) :
    s.memRead (0x200 + j) 1 = .data ((s.rxBuf j).setWidth 32) := by
  rw [memRead_window s (.inl rfl) (Nat.mod_one _) ((isWindow_iff _).2 (by omega)), windowValue_one,
    windowByte_rx s (by omega), if_pos hj]

theorem rxBytes_succ (s : State) (i n : Nat) : s.rxBytes i (n + 1) = s.rxBytes i n ++ [s.rxBuf (i + n)] := by
  simp [State.rxBytes, List.range_succ]

@[simp] theorem rxBytes_length (s : State) (i n : Nat) : (s.rxBytes i n).length = n := by
  simp [State.rxBytes]

/-! ### One turn in each phase (R144) -/

theorem driverTurn_dataCtrl (s : State) (h : s.eng = .idle) :
    (s.toPhase .dataCtrl).driverTurn = launchedRecv .recvData s.driver.policy (s.toPhase .dataWait) :=
  congrArg (State.toPhase · .dataWait)
    (wr_ctrl_launchedRecv (s := s.toPhase .dataCtrl) (op := .recvData) s.driver.policy rfl h)

theorem driverTurn_dataWait (s : State) :
    (s.toPhase .dataWait).driverTurn =
      (s.answer (.data s.statusWord)).toPhase (if s.busy then .dataWait else .dataStatus) := by
  change (if s.busy then (s.toPhase .dataWait).rd .status
    else ((s.toPhase .dataWait).rd .status).toPhase .dataStatus) = _
  rw [rd_eq]
  cases s.busy <;> rfl

theorem driverTurn_dataStatus (s : State) :
    (s.toPhase .dataStatus).driverTurn = (s.answer (.data s.statusWord)).toPhase (.dataCount s.statusWord) := by
  change ((s.toPhase .dataStatus).rd .status).toPhase _ = _
  rw [rd_eq]
  rfl

theorem driverTurn_dataCount (s : State) (st : Word32) :
    (s.toPhase (.dataCount st)).driverTurn = (s.answer (.data (s.rxCount.setWidth 32))).toPhase (dataPhase st) := by
  change ((s.toPhase (.dataCount st)).rd .rxCount).toPhase _ = _
  rw [rd_eq]
  rfl

/-- The turn that reads byte `got.length` of the template, which is RX_BUF[4 + got.length]. -/
theorem driverTurn_readTemplate (s : State) {got : List Byte} (hgot : got.length < 498) :
    (s.toPhase (.readTemplate got)).driverTurn = (s.answer (s.memRead (0x204 + got.length) 1)).toPhase
      (if got.length + 1 < 498 then .readTemplate (got ++ [s.rxBuf (4 + got.length)])
        else .sink (got ++ [s.rxBuf (4 + got.length)])) := by
  have hread : s.memRead (0x204 + got.length) 1 = .data ((s.rxBuf (4 + got.length)).setWidth 32) := by
    rw [← memRead_rxBuf s (by omega), ← Nat.add_assoc]
  have hbyte : responseByte (s.memRead (0x204 + got.length) 1) = [s.rxBuf (4 + got.length)] := by
    rw [hread, responseByte, BitVec.setWidth_setWidth_of_le _ (by decide), BitVec.setWidth_eq]
  change (s.answer _).toPhase (templatePhase (got ++ responseByte (s.memRead (0x204 + got.length) 1))) = _
  rw [hbyte, templatePhase, List.length_append]
  rfl

/-! ### The 498 turns that read the template -/

/-- The first `n` turns collect the template's first `n` bytes in rising order (log 17). -/
theorem repeat_driverTurn_readTemplate (s : State) {n : Nat} (hn : n < 498) :
    ∃ r, Nat.repeat State.driverTurn n (s.toPhase (.readTemplate [])) =
      (s.answer r).toPhase (.readTemplate (s.rxBytes 4 n)) := by
  induction n with
  | zero => exact ⟨s.host.bus, rfl⟩
  | succ n ih =>
    obtain ⟨r, hr⟩ := ih (by omega)
    refine ⟨s.memRead (0x204 + n) 1, ?_⟩
    rw [Nat.repeat, hr, driverTurn_readTemplate _ (by rw [rxBytes_length]; omega), rxBytes_length, if_pos hn,
      rxBytes_succ]
    rfl

/-- The last turn hands the template to the sink (R150). -/
theorem repeat_driverTurn_sink (s : State) {n : Nat} (hn : n + 1 = 498) :
    Nat.repeat State.driverTurn (n + 1) (s.toPhase (.readTemplate [])) =
      (s.answer (s.memRead (0x204 + n) 1)).toPhase (.sink (s.rxBytes 4 (n + 1))) := by
  obtain ⟨r, hr⟩ := repeat_driverTurn_readTemplate s (n := n) (by omega)
  rw [Nat.repeat, hr, driverTurn_readTemplate _ (by rw [rxBytes_length]; omega), rxBytes_length, if_neg (by omega),
    rxBytes_succ]
  rfl

/-- Settles O58: each turn makes the access of its phase, and the 498 turns that read the template collect its bytes. -/
theorem templateRetrieval : Obligations.TemplateRetrieval := by
  refine ⟨rfl, fun s st => ⟨driverTurn_dataCtrl s, fun hbusy => ?_, fun hbusy => ?_, driverTurn_dataStatus s,
    driverTurn_dataCount s st, fun got => driverTurn_readTemplate s, repeat_driverTurn_sink s (n := 497) rfl,
    fun _ _ => rfl⟩⟩
  · exact (driverTurn_dataWait s).trans (congrArg _ (if_pos hbusy))
  · exact (driverTurn_dataWait s).trans (congrArg _ (if_neg (ne_true_of_eq_false hbusy)))

end Sys2Proof.Machine
end

section
/-!
PROOFS. The encoding of host actions and instructions (30_encoding.md R79 to R86): bytes, CTRL words and commands, and
what the writes they stand for do.
-/
namespace Sys2Proof.Machine

/-! ### Bytes (00_scope.md R11) -/

theorem leValue_bytesLE (v n : Nat) : leValue (bytesLE v n) = v % 256 ^ n := by
  induction n generalizing v with
  | zero => rw [pow_zero, Nat.mod_one]; rfl
  | succ n ih =>
    rw [bytesLE, leValue, ih, BitVec.toNat_ofNat, pow_succ' 256 n]
    exact Nat.mod_mul.symm

/-- A word of `n` bytes is the little-endian value of its bytes. -/
theorem ofNat_leValue_bytesLE {n : Nat} (w : BitVec (8 * n)) :
    BitVec.ofNat (8 * n) (leValue (bytesLE w.toNat n)) = w := by
  have hlt : w.toNat < 256 ^ n := by simpa [pow_mul] using w.isLt
  rw [leValue_bytesLE, Nat.mod_eq_of_lt hlt, BitVec.ofNat_toNat, BitVec.setWidth_eq]

/-- The bytes of a host action give it back (log 3). -/
theorem actionOfBytes_actionBytes (a : HostAction) : actionOfBytes (actionFormat a) (actionBytes a) = .ok a := by
  cases a with
  | ctrl w =>
    change Except.ok (HostAction.ctrl (.ofNat 32 (leValue (bytesLE w.toNat 4)))) = _
    rw [ofNat_leValue_bytesLE (n := 4) w]
  | command c p w =>
    change Except.ok (HostAction.command (.ofNat 16 (leValue (bytesLE c.toNat 2)))
      (.ofNat 32 (leValue (bytesLE p.toNat 4))) (.ofNat 32 (leValue (bytesLE w.toNat 4)))) = _
    rw [ofNat_leValue_bytesLE (n := 2) c, ofNat_leValue_bytesLE (n := 4) p, ofNat_leValue_bytesLE (n := 4) w]

/-! ### Decoding a host action -/

/-- A CTRL word with START = 1 is the operation in its OP field (30_encoding.md R80). -/
theorem decodeAction_ctrl {w : Word32} (h : ctrlStart w = true) :
    decodeAction (.ctrl w) = .ok (blockInstr (ctrlOp w) (ctrlPolicy w)) := if_pos h

/-- The word of a block operation decodes to it (30_encoding.md R79, R80). -/
theorem decodeAction_ctrlWord (op : BlockOp) (pol : Policy) :
    decodeAction (.ctrl (ctrlWord true op pol)) = .ok (blockInstr op pol) := by
  rw [decodeAction_ctrl (ctrlStart_ctrlWord true op pol), ctrlOp_ctrlWord, ctrlPolicy_ctrlWord]

@[simp] theorem launchOf_launchWord (l : Launch) : launchOf (launchWord l) = some l := by
  obtain ⟨sendOnly, pol⟩ := l
  cases sendOnly <;> simp [launchOf, launchWord, launchOp]

/-- A command with a launch word is the one its opcode and parameter name (30_encoding.md R84). -/
theorem decodeAction_command (c : Word16) (p : Word32) (l : Launch) :
    decodeAction (.command c p (launchWord l)) = commandInstr c p l := by
  simp [decodeAction]

theorem decodeAction_encode (i : Instr) : decodeAction (encode i) = .ok i := by
  cases i with
  | exchange pol | recvData pol | sendCmd pol | recvCmd pol => exact decodeAction_ctrlWord _ pol
  | _ => exact decodeAction_command _ _ _

/-- Settles O2: the bytes give back the host action, and the action the instruction. -/
theorem decodeOfEncodeIsIdentity : Obligations.DecodeOfEncodeIsIdentity := by
  intro i
  rw [decode, Instr.format, encodeBytes, actionOfBytes_actionBytes]
  exact decodeAction_encode i

/-- The word of a block operation as the sum of its bits' weights (30_encoding.md R79). -/
theorem ctrlWord_eq_add (op : BlockOp) (v t : Bool) :
    ctrlWord true op ⟨v, t⟩ =
      BitVec.ofNat 32 (1 + 2 * blockOpCode op) + (if v then 0x8#32 else 0#32) + (if t then 0x10#32 else 0#32) := by
  cases op <;> cases v <;> cases t <;> rfl

/-- Settles O4, by the value of bits 2:1. -/
theorem everyStartWordIsAnOperation : Obligations.EveryStartWordIsAnOperation := by
  refine ⟨fun w hstart => ?_, fun v t => ?_⟩
  · rw [decodeAction_ctrl hstart]
    refine ⟨fun h2 h1 => ?_, fun h2 h1 => ?_, fun h2 h1 => ?_, fun h2 h1 => ?_⟩ <;> rw [ctrlOp, h2, h1] <;> rfl
  · exact ⟨congrArg _ (ctrlWord_eq_add .exchange v t), congrArg _ (ctrlWord_eq_add .recvData v t),
      congrArg _ (ctrlWord_eq_add .sendCmd v t), congrArg _ (ctrlWord_eq_add .recvCmd v t)⟩

/-! ### CTRL writes without START, and opcodes the table does not list -/

/-- Settles O15: without START an accepted write only sets the fields, and no field lies in bits 31:5. -/
theorem ctrlWriteWithoutStart : Obligations.CtrlWriteWithoutStart := by
  refine fun s w => ⟨fun hidle hstart => ?_, fun w' hbits => ?_⟩
  · have hwrite : s.writeCtrl w = s.setCtrl w := if_neg (ne_true_of_eq_false hstart)
    rw [wr_of_idle .ctrl w hidle, State.writeReg, hwrite]
    rfl
  · exact wr_ctrl_congr s (hbits 0 (by decide)) (ctrlOf_congr hbits)

/-- An issued host action makes its bus writes, whether or not it is an instruction of the table
(30_encoding.md R81, R86). -/
theorem stepEvent_issue (a : HostAction) (s : State) : stepEvent (.issue a) s = .next (s.perform a) := by
  cases h : decodeAction a with
  | ok i => simpa [stepEvent, eventInstr, h] using decodedActionMakesItsBusWrites a i s h
  | error e => simp [stepEvent, eventInstr, h, State.agentStep]

/-- Settles O16: the writes of CMD, PARAM and CTRL are made whatever the opcode and the parameter are. -/
theorem anyOpcodeAndParameterIsCarried : Obligations.AnyOpcodeAndParameterIsCarried := by
  intro s rest op p pol hidle hpend hinputs
  refine ⟨commandStarted op p ⟨false, pol⟩ { s with inputs := rest }, ?_, ?_⟩
  · rw [step_cons hinputs (deferred_of_no_pending hpend), stepEvent_issue]
    exact congrArg _ (command_of_idle (s := { s with inputs := rest }) op p ⟨false, pol⟩ hidle)
  · exact commandStarted_launches (s := { s with inputs := rest }) op p ⟨false, pol⟩ hidle hpend

/-! ### Written-out words -/

/-- Settles O1: the decoder runs on each word. -/
theorem sampleWordsDecode : Obligations.SampleWordsDecode := by
  refine ⟨?_, ?_, ?_, ?_, ?_, ?_, ?_, ?_, ?_, ?_, ?_⟩ <;> rfl

/-- Settles O5: the encoder runs on each command. -/
theorem commandWireBytes : Obligations.CommandWireBytes := by
  refine ⟨?_, ?_, ?_, ?_, ?_, ?_, ?_, ?_, ?_, ?_, ?_, ?_, ?_, ?_, ?_⟩ <;> rfl

end Sys2Proof.Machine
end

section
/-!
PROOFS. The reference driver's call, up to its launch (43_host_sequences.md R140, 30_encoding.md R90).
-/
namespace Sys2Proof.Machine

theorem driverTurn_writeCmd {s : State} {op : Word16} {p : Word32} {why : Purpose}
    (hphase : s.driver.phase = .writeCmd op p why) (hidle : s.eng = .idle) :
    s.driverTurn = ({ s with cmd := op }.answer .okay).toPhase (.writeParam p why) := by
  simp only [State.driverTurn, hphase]
  rw [wr_of_idle .cmd _ hidle, State.writeReg, BitVec.setWidth_setWidth_of_le _ (by decide), BitVec.setWidth_eq]

theorem driverTurn_writeParam (s : State) (p : Word32) (why : Purpose) (hidle : s.eng = .idle) :
    (s.toPhase (.writeParam p why)).driverTurn = ({ s with param := p }.answer .okay).toPhase (.writeCtrl why) :=
  (congrArg (State.toPhase · (.writeCtrl why))
    (wr_of_idle (s := s.toPhase (.writeParam p why)) .param p hidle)).trans rfl

theorem driverTurn_writeCtrl (s : State) (why : Purpose) (hidle : s.eng = .idle) :
    (s.toPhase (.writeCtrl why)).driverTurn =
      launchedSend .exchange s.driver.policy s.cmd s.param (s.toPhase (.wait why)) :=
  congrArg (State.toPhase · (.wait why))
    (wr_ctrl_launchedSend (s := s.toPhase (.writeCtrl why)) (op := .exchange) s.driver.policy rfl hidle)

/-- Settles O54: the three turns make the writes of CMD, PARAM and CTRL, and the last one launches. -/
theorem driverCallLaunchesExchange : Obligations.DriverCallLaunchesExchange := by
  intro s op p why hidle hphase
  rw [driverTurn_writeCmd hphase hidle, driverTurn_writeParam _ p why (by exact hidle),
    driverTurn_writeCtrl _ why (by exact hidle)]
  rfl

end Sys2Proof.Machine
end

section
/-!
PROOFS. The lines of a host program (30_encoding.md R89): their accesses, the variables and the expressions.
-/
namespace Sys2Proof.Machine

/-! ### Variables -/

@[simp] theorem varValue_setVar_same (vs : List (Nat × Int)) (x : Nat) (v : Int) : varValue (setVar vs x v) x = v := by
  induction vs with
  | nil => simp [setVar, varValue]
  | cons c vs ih => by_cases h : c.1 = x <;> simp [setVar, varValue, h, ih]

theorem varValue_setVar_other (vs : List (Nat × Int)) {x y : Nat} (v : Int) (hne : y ≠ x) :
    varValue (setVar vs x v) y = varValue vs y := by
  induction vs with
  | nil => simp [setVar, varValue, hne.symm]
  | cons c vs ih =>
    by_cases h : c.1 = x
    · simp [setVar, varValue, h, hne.symm]
    · simp [setVar, varValue, h, ih]

/-! ### Reads -/

theorem hostRead_data {s : State} {off n : Nat} {w : Word32} (x : Nat) (h : s.memRead off n = .data w) :
    s.hostRead off n x = (s.answer (.data w)).hostSet x w.toNat := by
  simp only [State.hostRead, h]

/-- A read with an ERROR response sets no variable (log 16). -/
theorem hostRead_error {s : State} {off n : Nat} (x : Nat) (h : s.memRead off n = .error) :
    s.hostRead off n x = s.answer .error := by
  simp only [State.hostRead, h]

/-! ### Lines that may go on or not -/

theorem hostLine_waitIdle (s : State) :
    s.hostLine .waitIdle = if s.busy then s.rd .status else (s.rd .status).hostNext := rfl

theorem hostLine_ifGoto (s : State) (e : HostExpr) (l : Nat) :
    s.hostLine (.ifGoto e l) = if evalExpr s.host.vars e ≠ 0 then s.hostLabel l else s.hostNext := by
  by_cases h : evalExpr s.host.vars e = 0 <;> simp [State.hostLine, evalCond, h]

/-! ### Expressions -/

theorem boolValue_decide (P : Prop) [Decidable P] : boolValue (decide P) = if P then 1 else 0 := by
  simp [boolValue]

theorem boolValue_decide_of_iff_not {P Q : Prop} [Decidable P] [Decidable Q] (h : P ↔ ¬ Q) :
    boolValue (decide P) = if Q then 0 else 1 := by
  rw [boolValue_decide, if_congr h rfl rfl, ite_not]

/-- Settles O60: each line makes its access, a variable set reads as set, and a comparison is 1 or 0. -/
theorem hostLinesMakeTheirAccesses : Obligations.HostLinesMakeTheirAccesses := by
  refine ⟨fun s r v i x l e => ?_, fun vs x y v => ⟨varValue_setVar_same vs x v, varValue_setVar_other vs v⟩,
    fun vs a b x n j k => ?_⟩
  · refine ⟨rfl, rfl, fun w h => ?_, fun w h => ?_, fun w h => ?_, fun h => ?_, fun h => ?_, fun hbusy => ?_,
      fun hbusy => ?_, rfl, rfl, rfl, rfl, fun hne => ?_, fun h0 => ?_, rfl⟩
    · exact congrArg State.hostNext (hostRead_data x h)
    · exact congrArg State.hostNext (hostRead_data x h)
    · exact congrArg State.hostNext (hostRead_data x h)
    · exact congrArg State.hostNext (hostRead_error x h)
    · exact congrArg State.hostNext (hostRead_error x h)
    · rw [hostLine_waitIdle, if_pos hbusy]; rfl
    · rw [hostLine_waitIdle, if_neg (ne_true_of_eq_false hbusy)]; rfl
    · rw [hostLine_ifGoto, if_pos hne]; rfl
    · rw [hostLine_ifGoto, if_neg (not_not_intro h0)]; rfl
  · exact ⟨rfl, rfl, rfl, rfl, rfl, rfl, boolValue_decide _, boolValue_decide_of_iff_not Iff.rfl,
      boolValue_decide _, boolValue_decide_of_iff_not not_lt.symm⟩

end Sys2Proof.Machine
end

section
/-!
PROOFS. The packet codec: what the checksum is and detects, and that the encode and the decode agree (40_codec.md R91 to
R101).
-/
namespace Sys2Proof.Machine

/-! ### Sums of bytes (40_codec.md R91, R92) -/

theorem byteSum_eq_sum (bs : List Byte) : byteSum bs = (bs.map BitVec.toNat).sum := by
  induction bs with
  | nil => rfl
  | cons b bs ih => simp [byteSum, ih]

@[simp] theorem byteSum_append (as bs : List Byte) : byteSum (as ++ bs) = byteSum as + byteSum bs := by
  simp [byteSum_eq_sum]

theorem byteSum_perm {as bs : List Byte} (h : as.Perm bs) : byteSum as = byteSum bs := by
  simpa only [byteSum_eq_sum] using (h.map BitVec.toNat).sum_eq

theorem byteSum_replicate (n : Nat) (b : Byte) : byteSum (List.replicate n b) = n * b.toNat := by
  simp [byteSum_eq_sum]

/-- Each byte adds at most 0xFF. -/
theorem byteSum_le {bs : List Byte} {n : Nat} (h : bs.length = n) : byteSum bs ≤ n * 0xFF := by
  induction bs generalizing n with
  | nil => exact Nat.zero_le _
  | cons b bs ih =>
    have hb : b.toNat < 256 := b.isLt
    have hrest : byteSum bs ≤ bs.length * 0xFF := ih rfl
    rw [List.length_cons] at h
    simp only [byteSum]
    omega

/-- Another byte at index `i` moves the sum by the difference of the two bytes. -/
theorem byteSum_set {bs : List Byte} {i : Nat} (b : Byte) (hi : i < bs.length) :
    byteSum (bs.set i b) + (packetByte bs i).toNat = byteSum bs + b.toNat := by
  induction bs generalizing i with
  | nil => cases hi
  | cons c bs ih =>
    cases i with
    | zero => simp only [List.set_cons_zero, byteSum, packetByte, List.getD_cons_zero]; omega
    | succ i =>
      have hrest := ih (Nat.lt_of_succ_lt_succ hi)
      simp only [List.set_cons_succ, byteSum, packetByte, List.getD_cons_succ] at hrest ⊢
      omega

theorem checksumOf_toNat (bs : List Byte) : (checksumOf bs).toNat = byteSum bs % 65536 := BitVec.toNat_ofNat _ _

/-- A sum below 0x10000 is the checksum itself. -/
theorem checksumOf_toNat_of_lt {bs : List Byte} (h : byteSum bs < 65536) : (checksumOf bs).toNat = byteSum bs :=
  (checksumOf_toNat bs).trans (Nat.mod_eq_of_lt h)

theorem checksumOf_congr {as bs : List Byte} (h : byteSum as = byteSum bs) : checksumOf as = checksumOf bs :=
  congrArg (BitVec.ofNat 16) h

theorem checksumOf_cons (b : Byte) (bs : List Byte) : checksumOf (b :: bs) = b.setWidth 16 + checksumOf bs := by
  simp [checksumOf, byteSum, BitVec.ofNat_add, BitVec.ofNat_toNat]

/-- A 16-bit accumulator that wraps at each addition ends at the checksum above its first value. -/
theorem foldl_add_eq_checksumOf (bs : List Byte) (acc : Word16) :
    bs.foldl (fun acc b => acc + b.setWidth 16) acc = acc + checksumOf bs := by
  induction bs generalizing acc with
  | nil => exact (BitVec.add_zero acc).symm
  | cons b bs ih => rw [List.foldl_cons, ih, checksumOf_cons, BitVec.add_assoc]

/-- Settles O17: the exact sum is taken modulo 65536, once at the end or at each addition. -/
theorem checksumIsTheTruncatedSum : Obligations.ChecksumIsTheTruncatedSum := by
  refine fun bs => ⟨?_, ?_, rfl⟩
  · rw [checksumOf_toNat, byteSum_eq_sum]
  · rw [foldl_add_eq_checksumOf, BitVec.zero_add]

/-- A change of one byte moves the sum by less than 256, so it shows in 16 bits (40_codec.md R92). -/
theorem checksumOf_set_ne {bs : List Byte} {i : Nat} {b : Byte} (hi : i < bs.length) (hb : b ≠ packetByte bs i) :
    checksumOf (bs.set i b) ≠ checksumOf bs := by
  intro heq
  have hsum : byteSum (bs.set i b) % 65536 = byteSum bs % 65536 := by
    rw [← checksumOf_toNat, heq, checksumOf_toNat]
  have hmove : byteSum (bs.set i b) + (packetByte bs i).toNat = byteSum bs + b.toNat := byteSum_set b hi
  have hne : b.toNat ≠ (packetByte bs i).toNat := fun h => hb (BitVec.eq_of_toNat_eq h)
  have hnew : b.toNat < 256 := b.isLt
  have hold : (packetByte bs i).toNat < 256 := (packetByte bs i).isLt
  omega

/-- Settles O18: the order and two opposite changes keep the sum, and one changed byte does not keep it modulo 65536. -/
theorem checksumDetectsSingleByteCorruption : Obligations.ChecksumDetectsSingleByteCorruption := by
  refine ⟨fun bs cs h => checksumOf_congr (byteSum_perm h), fun bs i b => checksumOf_set_ne,
    fun as bs cs x y x' y' h => checksumOf_congr ?_⟩
  simp only [byteSum_append, byteSum]
  omega

/-! ### The fields of an encoded packet (40_codec.md R94 to R97) -/

/-- Settles O20: the constant bytes stand before the parameter. -/
theorem encodedPacketPrefix : Obligations.EncodedPacketPrefix := fun _ _ => ⟨rfl, rfl, rfl, rfl⟩

theorem packetParameter_encodeCommand (op : Word16) (p : Word32) : packetParameter (encodeCommand op p) = p :=
  ofNat_leValue_bytesLE (n := 4) p

theorem packetCommand_encodeCommand (op : Word16) (p : Word32) : packetCommand (encodeCommand op p) = op :=
  ofNat_leValue_bytesLE (n := 2) op

/-- The last two bytes of an encoded packet are the checksum of the ten before them. -/
theorem packetChecksum_encodeCommand (op : Word16) (p : Word32) :
    packetChecksum (encodeCommand op p) = checksumOf (commandBody op p) :=
  ofNat_leValue_bytesLE (n := 2) (checksumOf (commandBody op p))

/-- Settles O21, field by field. -/
theorem codecRoundTrip : Obligations.CodecRoundTrip := fun op p =>
  ⟨Prod.ext (packetParameter_encodeCommand op p) (packetCommand_encodeCommand op p),
    (packetChecksum_encodeCommand op p).symm⟩

/-! ### The ranges of the sums (40_codec.md R93) -/

/-- The sum of a Command packet: the constant bytes make 0x0100, bytes 4 to 9 the rest. -/
theorem byteSum_commandBody (op : Word16) (p : Word32) :
    byteSum (commandBody op p) = 0x0100 + byteSum (((encodeCommand op p).drop 4).take 6) := by
  have hsplit : commandBody op p = [0x55#8, 0xAA#8, 0x01#8, 0x00#8] ++ ((encodeCommand op p).drop 4).take 6 := rfl
  rw [hsplit, byteSum_append]
  rfl

/-- The six bytes of the parameter and the opcode sum to at most 0x05FA. -/
theorem byteSum_parameter_opcode_le (op : Word16) (p : Word32) :
    byteSum (((encodeCommand op p).drop 4).take 6) ≤ 0x05FA :=
  byteSum_le (n := 6) (by simp)

theorem checksumOf_commandBody_toNat (op : Word16) (p : Word32) :
    (checksumOf (commandBody op p)).toNat = 0x0100 + byteSum (((encodeCommand op p).drop 4).take 6) := by
  have hle := byteSum_parameter_opcode_le op p
  rw [checksumOf_toNat_of_lt (by rw [byteSum_commandBody]; omega), byteSum_commandBody]

/-- The checksum computed over a packet is that of the bytes before its two-byte checksum field. -/
theorem packetSum_append_bytesLE (body : List Byte) (v : Nat) : packetSum (body ++ bytesLE v 2) = checksumOf body := by
  simp [packetSum]

theorem packetSum_dataPacket (payload : List Byte) :
    packetSum (dataPacket payload) = BitVec.ofNat 16 (0x0100 + byteSum payload) := by
  rw [dataPacket, packetSum_append_bytesLE, checksumOf, byteSum_append]
  rfl

/-- Settles O19: each byte is at most 0xFF, and the constant bytes of both packets sum to 0x0100. -/
theorem checksumRanges : Obligations.ChecksumRanges := by
  refine ⟨fun op p => ?_, fun _ => byteSum_le, fun _ => byteSum_le, byteSum_replicate _ _, by decide, ?_⟩
  · have hle := byteSum_parameter_opcode_le op p
    rw [checksumOf_commandBody_toNat]
    exact ⟨by rw [byteSum_eq_sum], by omega, by omega⟩
  · rw [packetSum_dataPacket, byteSum_replicate]
    rfl

end Sys2Proof.Machine
end

section
/-!
PROOFS. Runs of several steps: the launch of an operation, its SEND phase, the Module's reply and its RECV phase
(41_link_operations.md R105 to R117), and from them the whole operations.
-/
namespace Sys2Proof.Machine

/-! ### The buffers (10_state.md R37, R38) -/

/-- Bytes that are written read back, whatever the draw is. -/
theorem map_bufByte_of_read {s : State} {base : Nat} {p : List Byte}
    (h : ∀ i, i < p.length → Memory.read s.mem (base + i) = some (packetByte p i)) :
    (List.range p.length).map (fun i => s.bufByte (base + i)) = p := by
  refine List.ext_getElem (by simp) fun i _ hi => ?_
  simp [State.bufByte, h i hi, packetByte, hi]

theorem txBytes_of_txHolds {s : State} {p : List Byte} (h : txHolds s.mem p) (hlen : p.length = 12) :
    s.txBytes = p := by
  have hread := map_bufByte_of_read h
  rw [hlen] at hread
  exact hread

/-- A byte of a packet that TX_BUF holds. -/
theorem txBuf_of_txHolds {s : State} {p : List Byte} {i : Nat} (h : txHolds s.mem p) (hi : i < p.length) :
    s.txBuf i = packetByte p i := by
  rw [State.txBuf, State.bufByte, h i hi]
  rfl

theorem txHolds_writeAll (m : Memory) (p : List Byte) : txHolds (Memory.writeAll m Config.txBase p) p :=
  Memory.read_writeAll_inside m Config.txBase p

theorem rxBytes_of_writeAll {s : State} {m : Memory} {p : List Byte}
    (h : s.mem = Memory.writeAll m Config.rxBase p) : s.rxBytes 0 p.length = p := by
  have hread := map_bufByte_of_read (s := s) (h ▸ Memory.read_writeAll_inside m Config.rxBase p)
  simpa [State.rxBytes, State.rxBuf] using hread

theorem Memory.writeAll_append (m : Memory) (a : Nat) (bs cs : List Byte) :
    Memory.writeAll m a (bs ++ cs) = Memory.writeAll (Memory.writeAll m a bs) (a + bs.length) cs := by
  induction bs generalizing m a with
  | nil => rfl
  | cons b bs ih => rw [List.cons_append, writeAll_cons, ih, writeAll_cons, List.length_cons, Nat.add_right_comm,
      Nat.add_assoc]

/-! ### The launch that sends (40_codec.md R96) -/

theorem launchedSend_txHolds (op : BlockOp) (pol : Policy) (c : Word16) (p : Word32) (s : State) :
    txHolds (launchedSend op pol c p s).mem (encodeCommand c p) := txHolds_writeAll s.mem _

theorem launchedSend_encodes (op : BlockOp) (pol : Policy) (c : Word16) (p : Word32) (s : State) :
    (launchedSend op pol c p s).txBytes = encodeCommand c p ∧
    (launchedSend op pol c p s).txCsum =
      le16 ((launchedSend op pol c p s).txBuf 10) ((launchedSend op pol c p s).txBuf 11) := by
  have hholds := launchedSend_txHolds op pol c p s
  refine ⟨txBytes_of_txHolds hholds (encodeCommand_length c p), ?_⟩
  rw [txBuf_of_txHolds hholds (by simp), txBuf_of_txHolds hholds (by simp)]
  rfl

/-- Settles O13: an instruction in an idle block launches at once, or its two further writes do. -/
theorem launchEncodesThePacket : Obligations.LaunchEncodesThePacket := by
  intro i s t hidle hpend ht
  rcases exec_idle_cases i hidle with ⟨op, pol, -, hsends, he⟩ | ⟨op, pol, -, hsends, he⟩ |
    ⟨c, p, l, -, hsends, he⟩ <;> rw [he] at ht <;> cases ht
  · rw [hostWrite_hostWrite_of_no_pending (s := launchedSend _ _ _ _ _) hpend]
    exact ⟨fun _ => ⟨rfl, launchedSend_encodes _ _ _ _ s⟩, fun hrecv => absurd (hsends.symm.trans hrecv) nofun⟩
  · rw [hostWrite_hostWrite_of_no_pending (s := launchedRecv _ _ _) hpend]
    exact ⟨fun hsend => absurd (hsends.symm.trans hsend) nofun, fun _ => ⟨rfl, rfl, fun _ _ => rfl⟩⟩
  · rw [commandStarted_launches c p l hidle hpend]
    exact ⟨fun _ => ⟨rfl, launchedSend_encodes _ _ _ _ s⟩, fun hrecv => absurd (hsends.symm.trans hrecv) nofun⟩

/-! ### Runs of several steps -/

/-- `k` steps lead from `s` to `t`. -/
def RunsTo (k : Nat) (s t : State) : Prop := Host.Core.run core k s = .next t

theorem runsTo_zero (s : State) : RunsTo 0 s s := rfl

/-- A run's first step, and the steps after it. -/
theorem run_succ (M : Host.Core) (k : Nat) {s t : M.State} (h : M.step s = .next t) : M.run (k + 1) s = M.run k t := by
  rw [Host.Core.run, h]

theorem runsTo_succ_iff {k : Nat} {s t u : State} (hstep : step s = .next t) : RunsTo (k + 1) s u ↔ RunsTo k t u :=
  Eq.to_iff (congrArg (· = _) (run_succ core k hstep))

theorem runsTo_one {s t : State} (h : step s = .next t) : RunsTo 1 s t := (runsTo_succ_iff h).2 (runsTo_zero t)

theorem RunsTo.trans {j k : Nat} {s t u : State} (hj : RunsTo j s t) (hk : RunsTo k t u) : RunsTo (j + k) s u := by
  induction j generalizing s with
  | zero => cases hj; rwa [Nat.zero_add]
  | succ j ih =>
    obtain ⟨v, hv⟩ : ∃ v, step s = .next v := by
      rcases stepEvent_cases s.nextEvent s.popEvent with ⟨_, -, hv⟩ | ⟨-, hv⟩ <;> exact ⟨_, hv⟩
    rw [Nat.succ_add]
    exact (runsTo_succ_iff hv).2 (ih ((runsTo_succ_iff hv).1 hj))

/-- A run that handles the bytes of `p` one a step: `f bs more es` is the state once the bytes `bs` are handled, with
`more` to come and the events `es` listed, and `e b` is the event that handles the byte `b`. -/
theorem runsTo_bytes {p : List Byte} {f : List Byte → List Byte → List Event → State} {e : Byte → Event}
    (hstep : ∀ bs b more es, p = bs ++ b :: more → step (f bs (b :: more) (e b :: es)) = .next (f (bs ++ [b]) more es))
    (rest : List Event) : RunsTo p.length (f [] p (p.map e ++ rest)) (f p [] rest) := by
  suffices h : ∀ bs more, p = bs ++ more → RunsTo more.length (f bs more (more.map e ++ rest)) (f p [] rest) from
    h [] p rfl
  intro bs more hp
  induction more generalizing bs with
  | nil => rw [hp, List.append_nil]; exact runsTo_zero _
  | cons b more ih => exact (runsTo_succ_iff (hstep bs b more _ hp)).2 (ih (bs ++ [b]) (by simp [hp]))

/-- A block operation that is issued with no write pending makes its CTRL write. -/
theorem step_issue_ctrl {s : State} {w : Word32} {rest : List Event} (h : s.inputs = .issue (.ctrl w) :: rest)
    (hpend : s.host.pending = []) : step s = .next (State.wr { s with inputs := rest } .ctrl w) := by
  rw [step_cons h (deferred_of_no_pending hpend), stepEvent_issue]
  rfl

/-- EXCHANGE or SEND_CMD, issued in an idle block, launches (41_link_operations.md R105). -/
theorem step_launchedSend {s : State} {op : BlockOp} {pol : Policy} {rest : List Event} (hop : encodes op = true)
    (hidle : s.eng = .idle) (hpend : s.host.pending = [])
    (h : s.inputs = .issue (.ctrl (ctrlWord true op pol)) :: rest) :
    step s = .next (launchedSend op pol s.cmd s.param { s with inputs := rest }) :=
  (step_issue_ctrl h hpend).trans
    (congrArg _ (wr_ctrl_launchedSend (s := { s with inputs := rest }) pol hop hidle))

/-- RECV_DATA or RECV_CMD, issued in an idle block, launches (41_link_operations.md R105). -/
theorem step_launchedRecv {s : State} {op : BlockOp} {pol : Policy} {rest : List Event} (hop : encodes op = false)
    (hidle : s.eng = .idle) (hpend : s.host.pending = [])
    (h : s.inputs = .issue (.ctrl (ctrlWord true op pol)) :: rest) :
    step s = .next (launchedRecv op pol { s with inputs := rest }) :=
  (step_issue_ctrl h hpend).trans
    (congrArg _ (wr_ctrl_launchedRecv (s := { s with inputs := rest }) pol hop hidle))

theorem step_engine {s : State} {accept : Bool} {rest : List Event} (h : s.inputs = .engine accept :: rest) :
    step s = .next (State.engineStep { s with inputs := rest } accept) :=
  step_cons h (deferred_of_no_access h rfl)

theorem step_moduleByte {s : State} {b : Byte} {rest : List Event} (h : s.inputs = .moduleByte b :: rest) :
    step s = .next (State.moduleByte { s with inputs := rest } b) :=
  step_cons h (deferred_of_no_access h rfl)

/-! ### The SEND phase (41_link_operations.md R110, R111) -/

/-- A byte that is accepted before the last one is pushed, and SEND goes on (R110). -/
theorem engineStep_push {s : State} (hs : s.eng = .send) (hidx : s.txIdx < 11) :
    s.engineStep true = s.pushNext.nextDraw := by
  rcases sendByte_cases s with ⟨-, h⟩ | ⟨h, -⟩ | ⟨h, -⟩
  · simp [State.engineStep, hs, h]
  · omega
  · omega

/-- The last byte is pushed, and SEND ends (R111). -/
theorem engineStep_push_last {s : State} (hs : s.eng = .send) (hidx : s.txIdx = 11) :
    s.engineStep true = s.pushNext.endOfSend.nextDraw := by
  rcases sendByte_cases s with ⟨h, -⟩ | ⟨-, h⟩ | ⟨h, -⟩
  · omega
  · simp [State.engineStep, hs, h]
  · omega

theorem endOfSend_nextDraw (s : State) : s.endOfSend.nextDraw = s.nextDraw.endOfSend := by
  unfold State.endOfSend
  rw [nextDraw_ctrl]
  cases s.ctrl.op <;> rfl

/-- A SEND phase that began in `s`, once the bytes `bs` are pushed, with the events `es` listed. -/
def State.pushed (s : State) (bs : List Byte) (es : List Event) : State :=
  { s with txStream := s.txStream ++ bs, txIdx := bs.length, draws := s.draws + bs.length, inputs := es }

theorem pushed_nil {s : State} (hidx : s.txIdx = 0) : s.pushed [] s.inputs = s := by
  rw [State.pushed, List.append_nil, List.length_nil, Nat.add_zero, ← hidx]

/-- The byte at `tx_idx` is the packet's next one. -/
theorem pushNext_pushed {s : State} {bs more : List Byte} {b : Byte} (hheld : txHolds s.mem (bs ++ b :: more))
    (es : List Event) : (s.pushed bs es).pushNext.nextDraw = s.pushed (bs ++ [b]) es := by
  have hbyte : (s.pushed bs es).txBuf bs.length = b := by
    rw [txBuf_of_txHolds (s := s.pushed bs es) hheld (by simp)]
    simp [packetByte]
  simp only [State.pushNext, State.pushed, State.txPush, State.nextDraw] at hbyte ⊢
  simp [hbyte, Nat.add_assoc]

/-- With the Transport accepting every byte, SEND pushes the packet that TX_BUF holds and ends. -/
theorem runsTo_endOfSend {s : State} {p : List Byte} {rest : List Event} (hs : s.eng = .send) (hidx : s.txIdx = 0)
    (hheld : txHolds s.mem p) (hlen : p.length = 12) (hin : s.inputs = List.replicate 12 (.engine true) ++ rest) :
    RunsTo 12 s (s.pushed p rest).endOfSend := by
  obtain ⟨init, b, rfl⟩ : ∃ init b, p = init ++ [b] :=
    (List.eq_nil_or_concat' p).resolve_left (by rintro rfl; cases hlen)
  have hinit : init.length = 11 := by simpa using hlen
  have hpush : RunsTo 11 (s.pushed [] s.inputs) (s.pushed init (.engine true :: rest)) := by
    have hrun := runsTo_bytes (p := init) (f := fun bs _ es => s.pushed bs es) (e := fun _ => .engine true)
      (fun bs b' more es hp => ?_) (.engine true :: rest)
    · rw [hinit, List.map_const', hinit] at hrun
      rw [hin]
      exact hrun
    · have hshort : bs.length < 11 := by rw [← hinit, hp]; simp
      rw [step_engine rfl]
      have hheld' : txHolds s.mem (bs ++ b' :: (more ++ [b])) := by simpa [hp] using hheld
      exact congrArg _ ((engineStep_push (s := s.pushed bs es) hs hshort).trans (pushNext_pushed hheld' es))
  have hlast : step (s.pushed init (.engine true :: rest)) = .next (s.pushed (init ++ [b]) rest).endOfSend := by
    rw [step_engine rfl, ← pushNext_pushed hheld rest, ← endOfSend_nextDraw]
    exact congrArg _ (engineStep_push_last (s := s.pushed init rest) hs hinit)
  rw [pushed_nil hidx] at hpush
  exact hpush.trans (runsTo_one hlast)

/-! ### The Module's bytes (10_state.md R40) -/

/-- The state `s`, once the Module's bytes `bs` are in the RX FIFO, with the events `es` listed. -/
def State.fifoGained (s : State) (bs : List Byte) (es : List Event) : State :=
  { s with rxFifo := s.rxFifo ++ bs, draws := s.draws + bs.length, inputs := es }

theorem fifoGained_nil (s : State) : s.fifoGained [] s.inputs = s := by
  simp [State.fifoGained]

/-- With no byte held back and room for all, the Module's bytes enter the RX FIFO in their order. -/
theorem runsTo_fifoGained {s : State} {p : List Byte} {rest : List Event} (hwait : s.moduleWaiting = [])
    (hroom : ∀ d, s.platform.rxFifoDepth = some d → s.rxFifo.length + p.length ≤ d)
    (hin : s.inputs = p.map .moduleByte ++ rest) : RunsTo p.length s (s.fifoGained p rest) := by
  have hrun := runsTo_bytes (p := p) (f := fun bs _ es => s.fifoGained bs es) (e := .moduleByte)
    (fun bs b more es hp => ?_) rest
  · rwa [← hin, fifoGained_nil] at hrun
  · have hfree : (s.fifoGained bs es).fifoHasRoom = true := (fifoHasRoom_iff _).2 fun d hd => by
      have hd := hroom d hd
      simp only [State.fifoGained, hp, List.length_append, List.length_cons] at hd ⊢
      omega
    have hbyte : (s.fifoGained bs es).moduleByte b = ((s.fifoGained bs es).fifoAppend b).nextDraw :=
      if_pos (by rw [hfree, Bool.and_true]; exact List.isEmpty_iff.2 hwait)
    rw [step_moduleByte rfl]
    refine congrArg _ (hbyte.trans ?_)
    simp [State.fifoGained, State.fifoAppend, State.nextDraw, Nat.add_assoc]

/-! ### The RECV phase (41_link_operations.md R113, R117) -/

/-- A RECV phase that began in `s`, once the bytes `bs` are taken, with `more` in the RX FIFO and the events `es`
listed. -/
def State.taken (s : State) (bs more : List Byte) (es : List Event) : State :=
  { s with
    mem := Memory.writeAll s.mem Config.rxBase bs
    rxFifo := more
    rxCount := BitVec.ofNat 10 bs.length
    draws := s.draws + bs.length
    inputs := es }

theorem taken_nil {s : State} (hcount : s.rxCount = 0#10) : s.taken [] s.rxFifo s.inputs = s := by
  rw [State.taken, Memory.writeAll_nil, List.length_nil, Nat.add_zero, ← hcount]

theorem taken_rxCount_toNat (s : State) {bs : List Byte} (more : List Byte) (es : List Event) (h : bs.length ≤ 504) :
    (s.taken bs more es).rxCount.toNat = bs.length := by
  simp only [State.taken, BitVec.toNat_ofNat]
  omega

/-- The bytes collected, where they are what RX_BUF was written with. -/
theorem collected_of_writeAll {s : State} {m : Memory} {p : List Byte}
    (hmem : s.mem = Memory.writeAll m Config.rxBase p) (hcount : s.rxCount.toNat = p.length) : s.collected = p := by
  rw [State.collected, hcount]
  exact rxBytes_of_writeAll hmem

theorem takeByte_taken (s : State) {bs : List Byte} (b : Byte) (more : List Byte) (es : List Event)
    (h : bs.length < 504) :
    ((s.taken bs (b :: more) es).takeByte b more).nextDraw = s.taken (bs ++ [b]) more es := by
  have hcount : (s.taken bs (b :: more) es).rxCount.toNat = bs.length := taken_rxCount_toNat s _ es h.le
  rw [takeByte_eq b more (by omega), hcount]
  simp [State.taken, State.nextDraw, Memory.writeAll_append, BitVec.ofNat_add, Nat.add_assoc]

/-- The packet is complete with the next byte just when `rx_len` is one more than the bytes taken (R113). -/
theorem packetComplete_takeByte_taken (s : State) {bs : List Byte} (b : Byte) (more : List Byte) (es : List Event)
    (h : bs.length < 504) :
    ((s.taken bs (b :: more) es).takeByte b more).packetComplete = decide (rxLen s.ctrl.op = some (bs.length + 1)) := by
  have hcount : (s.taken bs (b :: more) es).rxCount.toNat = bs.length := taken_rxCount_toNat s _ es h.le
  rw [State.packetComplete, takeByte_ctrl, takeByte_rxCount, rxCount_succ (by omega), hcount]
  rfl

theorem complete_inputs (s : State) (p : List Byte) : (s.complete p).inputs = s.inputs := by
  rcases complete_cases s p with ⟨-, h⟩ | ⟨-, -, h⟩ | ⟨-, -, h⟩ <;> rw [h] <;> rfl

theorem complete_nextDraw (s : State) (p : List Byte) : (s.complete p).nextDraw = s.nextDraw.complete p := by
  unfold State.complete State.accept
  rw [show s.nextDraw.rejects p = s.rejects p from rfl]
  split
  · rfl
  · split <;> rfl

theorem engineStep_receive {s : State} {b : Byte} {more : List Byte} (accept : Bool) (hs : s.eng = .recv)
    (hf : s.rxFifo = b :: more) : s.engineStep accept = s.receiveByte b more := by
  simp [State.engineStep, State.poll, hs, hf]

/-- A poll takes a byte before the last one (R113). -/
theorem step_taken {s : State} {bs : List Byte} (b : Byte) (more : List Byte) (es : List Event) (hs : s.eng = .recv)
    (hshort : bs.length < 504) (hlen : rxLen s.ctrl.op ≠ some (bs.length + 1)) :
    step (s.taken bs (b :: more) (.engine true :: es)) = .next (s.taken (bs ++ [b]) more es) := by
  have hmore : ((s.taken bs (b :: more) es).takeByte b more).packetComplete = false := by
    rw [packetComplete_takeByte_taken s b more es hshort, decide_eq_false hlen]
  rw [step_engine rfl, ← takeByte_taken s b more es hshort]
  refine congrArg _ ((engineStep_receive (s := s.taken bs (b :: more) es) true hs rfl).trans ?_)
  simp [State.receiveByte, hmore]

/-- The poll that takes the last byte completes the receive with all the bytes taken (R117). -/
theorem step_complete {s : State} {bs : List Byte} (b : Byte) (more : List Byte) (es : List Event) (hs : s.eng = .recv)
    (hlen : rxLen s.ctrl.op = some (bs.length + 1)) :
    step (s.taken bs (b :: more) (.engine true :: es)) =
      .next ((s.taken (bs ++ [b]) more es).complete (bs ++ [b])) := by
  have hshort : bs.length < 504 := rxLen_le hlen
  have hnext := takeByte_taken s b more es hshort
  have hdone : ((s.taken bs (b :: more) es).takeByte b more).packetComplete = true := by
    rw [packetComplete_takeByte_taken s b more es hshort, decide_eq_true hlen]
  have hall : ((s.taken bs (b :: more) es).takeByte b more).collected = bs ++ [b] :=
    collected_of_writeAll (congrArg State.mem hnext) ((congrArg (·.rxCount.toNat) hnext).trans
      (taken_rxCount_toNat s more es (by simpa using hshort)))
  rw [step_engine rfl, ← hnext, ← complete_nextDraw]
  refine congrArg _ ((engineStep_receive (s := s.taken bs (b :: more) es) true hs rfl).trans ?_)
  simp [State.receiveByte, hdone, hall]

/-- With the packet `p` in the RX FIFO, RECV takes it in FIFO order, leaves what is beyond it, and completes with it. -/
theorem runsTo_complete {s : State} {p extra : List Byte} {rest : List Event} (hs : s.eng = .recv)
    (hcount : s.rxCount = 0#10) (hlen : rxLen s.ctrl.op = some p.length) (hp : p ≠ []) (hf : s.rxFifo = p ++ extra)
    (hin : s.inputs = List.replicate p.length (.engine true) ++ rest) :
    RunsTo p.length s ((s.taken p extra rest).complete p) := by
  obtain ⟨init, b, rfl⟩ : ∃ init b, p = init ++ [b] := (List.eq_nil_or_concat' p).resolve_left hp
  rw [List.length_append, List.length_singleton] at hlen hin ⊢
  have hle : init.length + 1 ≤ 504 := rxLen_le hlen
  have htake : RunsTo init.length (s.taken [] s.rxFifo s.inputs)
      (s.taken init (b :: extra) (.engine true :: rest)) := by
    have hrun := runsTo_bytes (p := init) (f := fun bs more es => s.taken bs (more ++ b :: extra) es)
      (e := fun _ => .engine true) (fun bs b' more es hp => ?_) (.engine true :: rest)
    · rw [List.map_const'] at hrun
      simpa [hf, hin, List.replicate_succ'] using hrun
    · have hshort : bs.length < init.length := by rw [hp]; simp
      exact step_taken b' _ es hs (by omega) (by rw [hlen, ne_eq, Option.some.injEq]; omega)
  rw [taken_nil hcount] at htake
  exact htake.trans (runsTo_one (step_complete b extra rest hs hlen))

/-! ### Completion (41_link_operations.md R117, 40_codec.md R98 to R100) -/

theorem rejects_iff (s : State) (p : List Byte) : s.rejects p = true ↔ ¬ passes s.ctrl.verify p := by
  simp [State.rejects, passes]

/-- What a completion with the packet `p` leaves: RX_CSUM and IDLE, and DONE with a 12-byte packet decoded,
or CSUMERR. -/
theorem complete_eq (s : State) (p : List Byte) :
    ∃ f lp la, s.complete p = { s with flags := f, lastParam := lp, lastAck := la,
                                       rxCsum := packetChecksum p ++ packetSum p, eng := .idle } ∧
      (passes s.ctrl.verify p → f = { s.flags with done := true } ∧
        (p.length = 12 → lp = packetParameter p ∧ la = packetCommand p) ∧
        (p.length ≠ 12 → lp = s.lastParam ∧ la = s.lastAck)) ∧
      (¬ passes s.ctrl.verify p → f = { s.flags with csumErr := true } ∧ lp = s.lastParam ∧ la = s.lastAck) := by
  rcases complete_cases s p with ⟨hr, h⟩ | ⟨hr, hlen, h⟩ | ⟨hr, hlen, h⟩ <;> rw [h]
  · have hfail : ¬ passes s.ctrl.verify p := (rejects_iff s p).1 hr
    exact ⟨_, _, _, rfl, fun hpass => absurd hpass hfail, fun _ => ⟨rfl, rfl, rfl⟩⟩
  · have hpass : passes s.ctrl.verify p := by simpa [hr] using (rejects_iff s p).not
    exact ⟨_, _, _, rfl, fun _ => ⟨rfl, fun _ => ⟨rfl, rfl⟩, absurd hlen⟩, absurd hpass⟩
  · have hpass : passes s.ctrl.verify p := by simpa [hr] using (rejects_iff s p).not
    exact ⟨_, _, _, rfl, fun _ => ⟨rfl, fun h12 => absurd h12 hlen, fun _ => ⟨rfl, rfl⟩⟩, absurd hpass⟩

/-- From `s`, in RECV with nothing collected and `p ++ extra` in the RX FIFO, the receive of the packet `p` ends
in `t`. -/
structure Received (p extra : List Byte) (s t : State) : Prop where
  eng : t.eng = .idle
  txStream : t.txStream = s.txStream
  txCsum : t.txCsum = s.txCsum
  rxFifo : t.rxFifo = extra
  rxCount : t.rxCount.toNat = p.length
  stallCount : t.stallCount = s.stallCount
  rxBytes : t.rxBytes 0 p.length = p
  rxCsum : t.rxCsum = packetChecksum p ++ packetSum p
  accepted : passes s.ctrl.verify p → t.flags = { s.flags with done := true } ∧
    (p.length = 12 → t.lastParam = packetParameter p ∧ t.lastAck = packetCommand p) ∧ (p.length ≠ 12 → sameReply s t)
  rejected : ¬ passes s.ctrl.verify p → t.flags = { s.flags with csumErr := true } ∧ sameReply s t

theorem received_complete_taken (s : State) {p : List Byte} (extra : List Byte) (es : List Event)
    (hp : p.length ≤ 504) :
    Received p extra s ((s.taken p extra es).complete p) := by
  obtain ⟨f, lp, la, hend, hpass, hfail⟩ := complete_eq (s.taken p extra es) p
  rw [hend]
  exact ⟨rfl, rfl, rfl, rfl, taken_rxCount_toNat s extra es hp, rfl, rxBytes_of_writeAll rfl, rfl, hpass, hfail⟩

/-- With the packet `p` in the RX FIFO, RECV runs to its end. -/
theorem runsTo_received {s : State} {p extra : List Byte} {rest : List Event} (hs : s.eng = .recv)
    (hcount : s.rxCount = 0#10) (hlen : rxLen s.ctrl.op = some p.length) (hp : p ≠ []) (hf : s.rxFifo = p ++ extra)
    (hin : s.inputs = List.replicate p.length (.engine true) ++ rest) :
    ∃ t, RunsTo p.length s t ∧ t.inputs = rest ∧ Received p extra s t :=
  ⟨_, runsTo_complete hs hcount hlen hp hf hin, complete_inputs (s.taken p extra rest) p,
    received_complete_taken s extra rest (rxLen_le hlen)⟩

/-! ### Whole operations -/

/-- EXCHANGE and SEND_CMD, from the launch to the end of SEND. -/
theorem runsTo_sent {s : State} {op : BlockOp} {pol : Policy} {rest : List Event} (hop : encodes op = true)
    (hidle : s.eng = .idle) (hpend : s.host.pending = [])
    (hin : s.inputs = .issue (.ctrl (ctrlWord true op pol)) :: (List.replicate 12 (.engine true) ++ rest)) :
    RunsTo 13 s ((launchedSend op pol s.cmd s.param s).pushed (encodeCommand s.cmd s.param) rest).endOfSend :=
  (runsTo_succ_iff (step_launchedSend hop hidle hpend hin)).2
    (runsTo_endOfSend rfl rfl (launchedSend_txHolds op pol s.cmd s.param _) (encodeCommand_length s.cmd s.param) rfl)

/-- Settles O31: the launch, then twelve accepted bytes, the last of which ends the operation. -/
theorem sendCmdRunsToItsEnd : Obligations.SendCmdRunsToItsEnd := by
  intro s pol rest hidle hpend hin
  refine ⟨_, runsTo_sent rfl hidle hpend hin, rfl, rfl, rfl, rfl, rfl, rfl, rfl, ⟨rfl, rfl⟩, fun a ha => ?_⟩
  exact Memory.read_writeAll_outside _ _ _ (by rw [encodeCommand_length]; unfold inTxBuf at ha; omega)

/-- Settles O32: the launch, then one poll a byte, the last of which completes with the packet. -/
theorem receiveRunsToItsEnd : Obligations.ReceiveRunsToItsEnd := by
  intro s pol data p extra rest hidle hpend hf hlen hin
  obtain ⟨op, henc, hop, hrx⟩ : ∃ op, encode (if data then .recvData pol else .recvCmd pol) =
      .ctrl (ctrlWord true op pol) ∧ encodes op = false ∧ rxLen op = some p.length := by
    cases data <;> exact ⟨_, rfl, rfl, congrArg some hlen.symm⟩
  have hp : p ≠ [] := by rintro rfl; cases data <;> cases hlen
  rw [henc] at hin
  have hlaunch := step_launchedRecv hop hidle hpend hin
  obtain ⟨t, hrun, hrest, h⟩ := runsTo_received (s := launchedRecv op pol { s with inputs := _ }) (extra := extra)
    (rest := rest) rfl rfl hrx hp hf rfl
  refine ⟨t, (runsTo_succ_iff hlaunch).2 hrun, hrest, h.eng, h.txStream, h.txCsum, h.rxFifo, h.rxCount, h.stallCount,
    h.rxBytes, h.rxCsum, fun hpass => ?_, h.rejected⟩
  obtain ⟨hflags, h12, hlong⟩ := h.accepted hpass
  exact ⟨hflags, fun hd => h12 (by simp [hlen, hd]), fun hd => hlong (by simp [hlen, hd])⟩

/-- EXCHANGE in RECV: its packet is sent, and the reply is in the RX FIFO. -/
def exchangeReplied (pol : Policy) (reply : List Byte) (es : List Event) (s : State) : State :=
  ((launchedSend .exchange pol s.cmd s.param s).pushed (encodeCommand s.cmd s.param) es).endOfSend.fifoGained reply es

theorem runsTo_exchangeReplied {s : State} {pol : Policy} {reply : List Byte} {rest : List Event}
    (hidle : s.eng = .idle) (hpend : s.host.pending = []) (hwait : s.moduleWaiting = [])
    (hroom : ∀ d, s.platform.rxFifoDepth = some d → s.rxFifo.length + reply.length ≤ d)
    (hin : s.inputs = .issue (encode (.exchange pol)) ::
      (List.replicate 12 (.engine true) ++ (reply.map .moduleByte ++ rest))) :
    RunsTo (13 + reply.length) s (exchangeReplied pol reply rest s) :=
  (runsTo_sent rfl hidle hpend hin).trans (runsTo_fifoGained hwait hroom rfl)

/-- Settles O30: the launch, SEND, the Module's reply, and RECV. -/
theorem exchangeRunsToItsEnd : Obligations.ExchangeRunsToItsEnd := by
  intro s pol reply rest hidle hpend hf hwait hroom hlen hin
  have hreply : RunsTo (13 + reply.length) s
      (exchangeReplied pol reply (List.replicate 12 (.engine true) ++ rest) s) :=
    runsTo_exchangeReplied hidle hpend hwait (by simpa [hf, hlen] using hroom) (by simpa using hin)
  obtain ⟨t, hrecv, hrest, h⟩ := runsTo_received (p := reply) (extra := []) (rest := rest)
    (s := exchangeReplied pol reply (List.replicate 12 (.engine true) ++ rest) s) rfl rfl (congrArg some hlen.symm)
    (by rintro rfl; cases hlen) (by rw [List.append_nil]; exact congrArg (· ++ reply) hf) (by rw [hlen]; rfl)
  have hrun := hreply.trans hrecv
  have hbytes := h.rxBytes
  have hcount := h.rxCount
  rw [hlen] at hrun hbytes hcount
  refine ⟨t, hrun, hrest, h.eng, h.txStream, h.rxFifo, BitVec.eq_of_toNat_eq hcount, h.stallCount, hbytes, h.rxCsum,
    fun hpass => ?_, h.rejected⟩
  obtain ⟨hflags, h12, -⟩ := h.accepted hpass
  exact ⟨hflags, h12 hlen⟩

end Sys2Proof.Machine
end

section
/-!
PROOFS. The four block operations' launch (41_link_operations.md R105), and the Engine's, the Timer's and the errors' steps
one by one (R110 to R117, 60_exceptions.md R156 to R158).
-/
namespace Sys2Proof.Machine

/-! ### The launch (41_link_operations.md R105) -/

/-- A launched operation shows BUSY: it is in SEND or in RECV (10_state.md R23). -/
theorem statusWord_busy {s : State} (h : s.eng = .send ∨ s.eng = .recv) : s.statusWord.getLsbD 0 = true := by
  rw [statusWord_getLsbD, List.getD_cons_zero, State.busy]
  rcases h with h | h <;> rw [h] <;> rfl

/-- Settles O8: each of the four operations is the CTRL write of its word, which launches in an idle block and is refused
in a locked one. -/
theorem blockOperationsLaunch : Obligations.BlockOperationsLaunch := by
  refine fun pol s => ⟨fun h => ?_, fun h => ?_, rfl⟩
  · have hsend {op : BlockOp} (hop : encodes op = true) := wr_ctrl_launchedSend pol hop h
    have hrecv {op : BlockOp} (hop : encodes op = false) := wr_ctrl_launchedRecv pol hop h
    exact ⟨congrArg _ (hsend rfl), congrArg _ (hsend rfl), congrArg _ (hrecv rfl), congrArg _ (hrecv rfl),
      statusWord_busy (.inl rfl), statusWord_busy (.inl rfl), statusWord_busy (.inr rfl), statusWord_busy (.inr rfl)⟩
  · have hrefused (op : BlockOp) : s.wr .ctrl (ctrlWord true op pol) = refusedWrite s := wr_of_locked _ h rfl
    exact ⟨congrArg _ (hrefused .exchange), congrArg _ (hrefused .sendCmd), congrArg _ (hrefused .recvData),
      congrArg _ (hrefused .recvCmd)⟩

/-! ### SEND (41_link_operations.md R110, R111) -/

theorem endOfSend_of_exchange {s : State} (h : s.ctrl.op = .exchange) : s.endOfSend = { s with eng := .recv } := by
  rw [State.endOfSend, h]

theorem endOfSend_of_sendCmd {s : State} (h : s.ctrl.op = .sendCmd) : s.endOfSend = s.finish := by
  rw [State.endOfSend, h]

theorem pushNext_last {s : State} (h : s.txIdx = 11) :
    s.pushNext = { s with txStream := s.txStream ++ [s.txBuf 11], txIdx := 12 } := by
  rw [State.pushNext, h]
  rfl

/-- Settles O22: an accepted byte is pushed, and after the last one SEND ends as the operation says. -/
theorem sendByteSteps : Obligations.SendByteSteps := by
  refine fun s hs => ⟨fun hidx => engineStep_push hs hidx, fun hidx hop => ?_, fun hidx hop => ?_⟩
  · rw [engineStep_push_last hs hidx, endOfSend_of_exchange (s := s.pushNext) hop, pushNext_last hidx]
    rfl
  · rw [engineStep_push_last hs hidx, endOfSend_of_sendCmd (s := s.pushNext) hop, pushNext_last hidx]
    rfl

/-! ### The errors (60_exceptions.md R156 to R158) -/

theorem timeoutEng_eq (toFatal : Bool) : timeoutEng toFatal = if toFatal then .halted else .idle := by
  cases toFatal <;> rfl

/-- Settles O28: an error sets its flag, and where it ends the operation the Engine's next state is given. -/
theorem raisingAnError : Obligations.RaisingAnError := by
  refine fun s => ⟨?_, rfl, rfl⟩
  rw [← timeoutEng_eq]
  rfl

/-! ### The last byte of a receive (41_link_operations.md R117) -/

/-- The byte taken is the last of the bytes collected (R113). -/
theorem collected_takeByte {s : State} (b : Byte) (rest : List Byte) (hk : s.rxCount.toNat < 504) :
    (s.takeByte b rest).collected = s.collected ++ [b] := by
  have hold {i : Nat} (hi : i < s.rxCount.toNat) : (s.takeByte b rest).rxBuf (0 + i) = s.rxBuf (0 + i) := by
    rw [takeByte_eq b rest hk, State.rxBuf, State.bufByte, Memory.read_write_other _ _ (by omega)]
    rfl
  have hlast : (s.takeByte b rest).rxBuf (0 + s.rxCount.toNat) = b := by
    rw [takeByte_eq b rest hk, State.rxBuf, State.bufByte, Nat.zero_add, Memory.read_write_same]
    rfl
  rw [State.collected, takeByte_rxCount, rxCount_succ hk, State.rxBytes, List.range_succ, List.map_append,
    List.map_singleton, hlast, List.map_congr_left fun i hi => hold (List.mem_range.1 hi)]
  rfl

/-- The poll that takes the last byte completes the receive with the bytes collected before it and this one. -/
theorem engineStep_complete {s : State} {b : Byte} {rest : List Byte} (accept : Bool) (hs : s.eng = .recv)
    (hf : s.rxFifo = b :: rest) (hlen : rxLen s.ctrl.op = some (s.rxCount.toNat + 1)) :
    s.engineStep accept = ((s.takeByte b rest).complete (s.collected ++ [b])).nextDraw := by
  have hk : s.rxCount.toNat < 504 := rxLen_le hlen
  have hdone : (s.takeByte b rest).packetComplete = true := by
    rw [State.packetComplete, takeByte_ctrl, takeByte_rxCount, rxCount_succ hk, hlen, decide_eq_true rfl]
  rw [engineStep_receive accept hs hf, State.receiveByte, if_pos hdone, collected_takeByte b rest hk]

/-- Settles O25: the poll completes the receive, and the packet passes the validator or does not. -/
theorem receiveCompletes : Obligations.ReceiveCompletes := by
  intro s accept b rest hs hf hlen
  have hk : s.rxCount.toNat < 504 := rxLen_le hlen
  have hplen : (s.collected ++ [b]).length = s.rxCount.toNat + 1 := by simp
  obtain ⟨f, lp, la, hend, hpass, hfail⟩ := complete_eq (s.takeByte b rest) (s.collected ++ [b])
  rw [engineStep_complete accept hs hf hlen, hend]
  rw [takeByte_eq b rest hk] at hpass hfail ⊢
  refine ⟨fun hverify hsum => ?_, fun hp h12 => ?_, fun hp h504 => ?_⟩
  · obtain ⟨rfl, rfl, rfl⟩ := hfail (not_or.2 ⟨by simp [hverify], hsum⟩)
    rfl
  · obtain ⟨rfl, hdecoded, -⟩ := hpass hp
    obtain ⟨rfl, rfl⟩ := hdecoded (hplen.trans h12)
    rfl
  · obtain ⟨rfl, -, hkept⟩ := hpass hp
    obtain ⟨rfl, rfl⟩ := hkept (by omega)
    rfl

/-! ### The empty poll (41_link_operations.md R114) -/

theorem engineStep_empty {s : State} (accept : Bool) (hs : s.eng = .recv) (hf : s.rxFifo = []) :
    s.engineStep accept = s.emptyPoll := by
  simp [State.engineStep, State.poll, hs, hf]

theorem engineStep_startSleep {s : State} (accept : Bool) (hs : s.eng = .recv) (hf : s.rxFifo = [])
    (hp : s.pollInterval ≠ 0#16) : s.engineStep accept = s.startSleep.nextDraw := by
  rw [engineStep_empty accept hs hf, State.emptyPoll, if_neg hp]

theorem engineStep_stall {s : State} (accept : Bool) (hs : s.eng = .recv) (hf : s.rxFifo = [])
    (hp : s.pollInterval = 0#16) : s.engineStep accept = s.stall.nextDraw := by
  rw [engineStep_empty accept hs hf, State.emptyPoll, if_pos hp]

/-- Settles O26: an empty poll sleeps, or stalls where there is no tick to wait for. -/
theorem emptyPollSleepsOrStalls : Obligations.EmptyPollSleepsOrStalls := fun _ accept hs hf =>
  ⟨engineStep_startSleep accept hs hf, engineStep_stall accept hs hf⟩

/-! ### The tick and the stall (41_link_operations.md R115) -/

theorem tick_countTick {s : State} (hs : s.eng = .sleep) (hleft : s.sleepLeft ≠ 1#16) : s.tick = s.countTick := by
  rcases tick_cases s with ⟨-, hz, -⟩ | ⟨-, -, h⟩ | ⟨hne, -⟩
  · exact absurd (by bv_omega) hleft
  · exact h
  · exact absurd hs hne

/-- The tick that ends a sleep stalls. -/
theorem tick_stall {s : State} (hs : s.eng = .sleep) (hleft : s.sleepLeft = 1#16) :
    s.tick = { s with sleepLeft := 0#16 }.stall := by
  rcases tick_cases s with ⟨-, -, h⟩ | ⟨-, hz, -⟩ | ⟨hne, -⟩
  · rw [h, State.countTick, hleft]
    rfl
  · exact absurd (by rw [hleft]; rfl) hz
  · exact absurd hs hne

theorem stall_timeout {s : State} (h : s.maxPolls.toNat ≤ (s.stallCount + 1#16).toNat) :
    s.stall = s.countStall.raise .timeout := by
  rcases stall_cases s with ⟨-, hstall⟩ | ⟨hlt, -⟩
  · exact hstall
  · omega

theorem stall_pollAgain {s : State} (h : (s.stallCount + 1#16).toNat < s.maxPolls.toNat) :
    s.stall = s.countStall.pollAgain := by
  rcases stall_cases s with ⟨hle, -⟩ | ⟨-, hstall⟩
  · omega
  · exact hstall

theorem complete_stallCount (s : State) (p : List Byte) : (s.complete p).stallCount = s.stallCount := by
  rcases complete_cases s p with ⟨-, h⟩ | ⟨-, -, h⟩ | ⟨-, -, h⟩ <;> rw [h] <;> rfl

@[simp] theorem receiveByte_stallCount (s : State) (b : Byte) (rest : List Byte) :
    (s.receiveByte b rest).stallCount = s.stallCount := by
  rcases receiveByte_cases s b rest with ⟨-, h⟩ | ⟨-, h⟩ <;> simp [h, complete_stallCount]

/-- Settles O27: a tick counts down or stalls, a stall counts and compares with MAX_POLLS, and a byte does not count. -/
theorem tickAndStall : Obligations.TickAndStall := by
  refine ⟨fun _ => tick_of_ne_sleep, fun _ => tick_countTick, fun _ => tick_stall, fun _ => stall_timeout,
    fun _ => stall_pollAgain, fun s hmax => ?_, fun s accept hs hf => ?_⟩
  · have hle : s.maxPolls.toNat ≤ (s.stallCount + 1#16).toNat := by rw [hmax]; exact Nat.zero_le _
    rw [stall_timeout hle]
    rfl
  · obtain ⟨b, rest, hf⟩ := List.exists_cons_of_ne_nil hf
    rw [engineStep_receive accept hs hf, receiveByte_stallCount]

end Sys2Proof.Machine
end

section
/-!
PROOFS. A receive for which no byte ever comes: its empty polls, the ticks of SLEEP after each, and its timeout
(41_link_operations.md R122).
-/
namespace Sys2Proof.Machine

/-! ### One empty poll and its sleep -/

/-- The events of one empty poll: the Engine's step and the ticks of the sleep. -/
def emptyRound (ticks : Nat) : List Event := .engine true :: List.replicate ticks .tick

theorem step_tick {s : State} {rest : List Event} (h : s.inputs = .tick :: rest) :
    step s = .next (State.tick { s with inputs := rest }) :=
  step_cons h (deferred_of_no_access h rfl)

/-- SLEEP with `n + 1` ticks left stalls at the last of them (R115). -/
theorem runsTo_stall_of_sleep {s : State} {n : Nat} {rest : List Event} (hs : s.eng = .sleep)
    (hleft : s.sleepLeft.toNat = n + 1) (hin : s.inputs = List.replicate (n + 1) .tick ++ rest) :
    RunsTo (n + 1) s (State.stall { s with sleepLeft := 0#16, inputs := rest }) := by
  induction n generalizing s with
  | zero =>
    refine runsTo_one ((step_tick hin).trans (congrArg _ ?_))
    exact tick_stall (s := { s with inputs := rest }) hs (BitVec.eq_of_toNat_eq hleft)
  | succ n ih =>
    have hne : s.sleepLeft ≠ 1#16 := by bv_omega
    have hstep := (step_tick hin).trans (congrArg _ (tick_countTick (s := { s with inputs := _ }) hs hne))
    refine (runsTo_succ_iff hstep).2 (ih hs ?_ rfl)
    show (s.sleepLeft - 1#16).toNat = n + 1
    bv_omega

theorem stall_nextDraw (s : State) : s.stall.nextDraw = s.nextDraw.stall := by
  rcases stall_cases s with ⟨hle, h⟩ | ⟨hlt, h⟩ <;> rw [h]
  · exact (stall_timeout (s := s.nextDraw) hle).symm
  · exact (stall_pollAgain (s := s.nextDraw) hlt).symm

theorem step_startSleep {s : State} {rest : List Event} (hs : s.eng = .recv) (hf : s.rxFifo = [])
    (hp : s.pollInterval ≠ 0#16) (hin : s.inputs = .engine true :: rest) :
    step s = .next (State.startSleep { s with inputs := rest }).nextDraw :=
  (step_engine hin).trans (congrArg _ (engineStep_startSleep (s := { s with inputs := rest }) true hs hf hp))

theorem step_stall {s : State} {rest : List Event} (hs : s.eng = .recv) (hf : s.rxFifo = [])
    (hp : s.pollInterval = 0#16) (hin : s.inputs = .engine true :: rest) :
    step s = .next (State.stall { s with inputs := rest }).nextDraw :=
  (step_engine hin).trans (congrArg _ (engineStep_stall (s := { s with inputs := rest }) true hs hf hp))

/-- An empty poll and POLL_INTERVAL ticks lead to a stall, whether or not there is a sleep between (R114, R115). -/
theorem runsTo_stall_of_empty {s : State} {rest : List Event} (hs : s.eng = .recv) (hf : s.rxFifo = [])
    (hin : s.inputs = emptyRound s.pollInterval.toNat ++ rest) :
    ∃ left, RunsTo (s.pollInterval.toNat + 1) s
      (State.stall { s with sleepLeft := left, draws := s.draws + 1, inputs := rest }) := by
  by_cases hp : s.pollInterval = 0#16
  · have hzero : s.pollInterval.toNat = 0 := by rw [hp]; rfl
    rw [hzero] at hin ⊢
    have hstep := step_stall hs hf hp hin
    rw [stall_nextDraw] at hstep
    exact ⟨s.sleepLeft, runsTo_one hstep⟩
  · obtain ⟨n, hn⟩ : ∃ n, s.pollInterval.toNat = n + 1 := Nat.exists_eq_succ_of_ne_zero (by bv_omega)
    rw [hn] at hin ⊢
    exact ⟨0#16, (runsTo_succ_iff (step_startSleep hs hf hp hin)).2 (runsTo_stall_of_sleep rfl hn rfl)⟩

/-! ### The rounds -/

/-- A receive for which no byte came since `s`, polling again after `j` empty polls: `left` is what its last sleep left in
`sleep_left`, and the events `es` are listed. -/
def State.silent (s : State) (j : Nat) (left : Word16) (es : List Event) : State :=
  { s with
    eng := .recv, stallCount := BitVec.ofNat 16 j, sleepLeft := left, draws := s.draws + j, inputs := es }

theorem silent_zero {s : State} (hs : s.eng = .recv) (hcount : s.stallCount = 0#16) :
    s.silent 0 s.sleepLeft s.inputs = s := by
  rw [State.silent, Nat.add_zero, ← hs, ← hcount]

/-- One more empty poll of a silent receive, up to its stall. -/
theorem runsTo_stall_of_silent {s : State} {n j : Nat} {left : Word16} {rest : List Event} (hf : s.rxFifo = [])
    (hrun : RunsTo n s (s.silent j left (emptyRound s.pollInterval.toNat ++ rest))) :
    ∃ left', RunsTo (n + (s.pollInterval.toNat + 1)) s
      (State.stall { s.silent j left' rest with draws := s.draws + j + 1 }) := by
  obtain ⟨left', hround⟩ := runsTo_stall_of_empty (s := s.silent j left (emptyRound s.pollInterval.toNat ++ rest))
    (rest := rest) rfl hf rfl
  exact ⟨left', hrun.trans hround⟩

theorem silent_stallCount_toNat (s : State) {j : Nat} (left : Word16) (es : List Event) (hj : j < 65536) :
    (s.silent j left es).stallCount.toNat = j :=
  (BitVec.toNat_ofNat j 16).trans (Nat.mod_eq_of_lt hj)

theorem countStall_silent (s : State) (j : Nat) (left : Word16) (es : List Event) :
    State.countStall { s.silent j left es with draws := s.draws + j + 1 } = s.silent (j + 1) left es := by
  simp only [State.countStall, State.silent, BitVec.ofNat_add, Nat.add_assoc]

/-- A stall below the ceiling polls again (R115). -/
theorem stall_silent {s : State} {j : Nat} (left : Word16) (es : List Event) (hj : j + 1 < s.maxPolls.toNat) :
    State.stall { s.silent j left es with draws := s.draws + j + 1 } = s.silent (j + 1) left es := by
  have hlt : (BitVec.ofNat 16 j + 1#16).toNat < s.maxPolls.toNat := by bv_omega
  rw [stall_pollAgain hlt, countStall_silent]
  rfl

/-- A stall that reaches the ceiling times out (R115). -/
theorem stall_silent_timeout {s : State} {j : Nat} (left : Word16) (es : List Event) (hle : s.maxPolls.toNat ≤ j + 1)
    (hj : j + 1 < 65536) :
    State.stall { s.silent j left es with draws := s.draws + j + 1 } = (s.silent (j + 1) left es).raise .timeout := by
  have hceil : s.maxPolls.toNat ≤ (BitVec.ofNat 16 j + 1#16).toNat := by bv_omega
  rw [stall_timeout hceil, countStall_silent]

theorem flatten_replicate_succ {α : Type} (j : Nat) (l rest : List α) :
    (List.replicate (j + 1) l).flatten ++ rest = (List.replicate j l).flatten ++ (l ++ rest) := by
  rw [List.replicate_succ', List.flatten_append, List.flatten_singleton, List.append_assoc]

/-- A silent receive polls again after fewer than max(MAX_POLLS, 1) empty polls (R122). -/
theorem runsTo_silent {s : State} {j : Nat} {rest : List Event} (hs : s.eng = .recv) (hf : s.rxFifo = [])
    (hcount : s.stallCount = 0#16) (hj : j < max s.maxPolls.toNat 1)
    (hin : s.inputs = (List.replicate j (emptyRound s.pollInterval.toNat)).flatten ++ rest) :
    ∃ left, RunsTo (j * (s.pollInterval.toNat + 1)) s (s.silent j left rest) := by
  induction j generalizing rest with
  | zero =>
    have hin : s.inputs = rest := hin
    rw [Nat.zero_mul, ← hin]
    refine ⟨s.sleepLeft, ?_⟩
    rw [silent_zero hs hcount]
    exact runsTo_zero s
  | succ j ih =>
    rw [flatten_replicate_succ] at hin
    obtain ⟨_, hrun⟩ := ih (by omega) hin
    obtain ⟨left, hround⟩ := runsTo_stall_of_silent hf hrun
    rw [stall_silent left rest (by omega), ← Nat.succ_mul] at hround
    exact ⟨left, hround⟩

/-- The empty poll number max(MAX_POLLS, 1) of a silent receive times out (R115, R116). -/
theorem runsTo_silent_timeout {s : State} {k : Nat} {rest : List Event} (hs : s.eng = .recv) (hf : s.rxFifo = [])
    (hcount : s.stallCount = 0#16) (hk : k = max s.maxPolls.toNat 1)
    (hin : s.inputs = (List.replicate k (emptyRound s.pollInterval.toNat)).flatten ++ rest) :
    ∃ left, RunsTo (k * (s.pollInterval.toNat + 1)) s ((s.silent k left rest).raise .timeout) := by
  obtain ⟨j, rfl⟩ : ∃ j, k = j + 1 := Nat.exists_eq_succ_of_ne_zero (by omega)
  rw [flatten_replicate_succ] at hin
  obtain ⟨_, hrun⟩ := runsTo_silent hs hf hcount (by omega) hin
  obtain ⟨left, hround⟩ := runsTo_stall_of_silent hf hrun
  rw [stall_silent_timeout left rest (by omega) (by omega), ← Nat.succ_mul] at hround
  exact ⟨left, hround⟩

/-- Settles O29: each empty poll with its sleep stalls, which polls again below the ceiling and times out at it. -/
theorem silentReceiveTimesOutExactly : Obligations.SilentReceiveTimesOutExactly := by
  intro s rest pi k hs hf hcount hin
  have hbound : k < 65536 := by omega
  refine ⟨?_, fun j hj => ?_⟩
  · obtain ⟨left, hrun⟩ := runsTo_silent_timeout hs hf hcount rfl hin
    exact ⟨_, hrun, rfl, silent_stallCount_toNat s left rest hbound, timeoutEng_eq s.ctrl.toFatal, rfl, rfl,
      ⟨rfl, rfl⟩, rfl, rfl, rfl⟩
  · obtain ⟨later, hk⟩ := Nat.exists_eq_add_of_le hj.le
    rw [hk, ← List.replicate_append_replicate, List.flatten_append, List.append_assoc] at hin
    obtain ⟨left, hrun⟩ := runsTo_silent hs hf hcount hj hin
    exact ⟨_, hrun, rfl, silent_stallCount_toNat s left _ (hj.trans hbound), rfl⟩

end Sys2Proof.Machine
end

section
/-!
PROOFS. The reference driver's decisions on a call's result (43_host_sequences.md R140 to R149).
-/
namespace Sys2Proof.Machine

/-! ### The result of a call (R140) -/

/-- The result of a call follows the flags in the order of R140. -/
theorem callResult_statusWord (s : State) (ack : Word16) (p : Word32) :
    callResult s.statusWord ack p =
      if s.flags.done then some (.reply ack p)
      else if s.flags.timeout then some .timeout
      else if s.flags.csumErr then some .checksumMismatch
      else if s.flags.busyErr then some .rejected
      else none := by
  simp only [callResult, statusWord_getLsbD]
  rfl

/-- Settles O53: the first flag that is set gives the result. -/
theorem callResultFromStatus : Obligations.CallResultFromStatus := by
  intro s ack p
  rw [callResult_statusWord]
  refine ⟨fun hdone => ?_, fun hdone htimeout => ?_, fun hdone htimeout hcsum => ?_,
    fun hdone htimeout hcsum hbusy => ?_⟩
  · simp [hdone]
  · simp [hdone, htimeout]
  · simp [hdone, htimeout, hcsum]
  · simp [hdone, htimeout, hcsum, hbusy]

/-! ### What follows a reply (R142 to R149) -/

theorem afterCall_enrollStart_nack (quality code : Word32) {ack : Word16} (h : ack ≠ 0x0030#16) :
    afterCall quality .enrollStart (.reply ack code) = .finish (.nack code) :=
  if_neg h

theorem afterCall_enrollStep_nack (quality : Word32) (k : Nat) (code : Word32) {ack : Word16}
    (h : ack ≠ 0x0030#16) : afterCall quality (.enrollStep k) (.reply ack code) = .finish (classify code) :=
  if_neg h

theorem afterCall_identify_nack (quality code : Word32) {ack : Word16} (h : ack ≠ 0x0030#16) :
    afterCall quality .identify (.reply ack code) = .finish .noMatch :=
  if_neg h

/-- A NACK below the ceiling makes the next attempt (R143). -/
theorem afterCall_capture_nack_retry (quality : Word32) (after : AfterCapture) {n : Nat} (hn : n < 500)
    {ack : Word16} (code : Word32) (h : ack ≠ 0x0030#16) :
    afterCall quality (.capture n after) (.reply ack code) = captureCall quality (n + 1) after :=
  (if_neg h).trans (if_pos hn)

/-- A NACK at the ceiling ends the loop (R143). -/
theorem afterCall_capture_nack_ceiling (quality : Word32) (after : AfterCapture) {ack : Word16} (code : Word32)
    (h : ack ≠ 0x0030#16) :
    afterCall quality (.capture 500 after) (.reply ack code) = .finish .captureTimeout :=
  (if_neg h).trans (if_neg (Nat.lt_irrefl 500))

theorem afterCall_enrollStart_ack (quality p : Word32) :
    afterCall quality .enrollStart (.reply 0x0030#16 p) = captureCall quality 1 (.enrollStep 1) := rfl

theorem afterCall_capture_ack (quality : Word32) (n : Nat) (after : AfterCapture) (p : Word32) :
    afterCall quality (.capture n after) (.reply 0x0030#16 p) = afterCaptured after := rfl

/-- An acknowledged enroll step before the third is followed by the next capture (R142). -/
theorem afterCall_enrollStep_ack (quality : Word32) {k : Nat} (hk : k < 3) (p : Word32) :
    afterCall quality (.enrollStep k) (.reply 0x0030#16 p) = captureCall quality 1 (.enrollStep (k + 1)) :=
  if_pos hk

/-- The third acknowledged enroll step is followed by the template (R142, R144). -/
theorem afterCall_lastEnrollStep_ack (quality p : Word32) :
    afterCall quality (.enrollStep 3) (.reply 0x0030#16 p) = .retrieve := rfl

theorem afterCall_identify_ack (quality p : Word32) :
    afterCall quality .identify (.reply 0x0030#16 p) = .finish (.matched p) := rfl

theorem afterCall_presence (quality : Word32) (a : Word16) (p : Word32) :
    afterCall quality .presence (.reply a p) = .finish (.pressed (p != 0x1012#32)) := rfl

/-- Settles O55: a NACK is classified by its code, at the boundary 199. -/
theorem enrollNackClassification : Obligations.EnrollNackClassification := by
  intro quality k ack code hnack
  rw [afterCall_enrollStep_nack quality k code hnack]
  exact ⟨fun hle => congrArg DriverNext.finish (if_pos hle),
    fun hlt => congrArg DriverNext.finish (if_neg (Nat.not_le_of_lt hlt))⟩

/-- Settles O59: the outcomes by ACK and NACK, and by the code of an absent finger. -/
theorem identifyAndPresence : Obligations.IdentifyAndPresence := by
  intro quality p a
  refine ⟨afterCall_capture_ack quality 1 .identify p, afterCall_identify_ack quality p,
    afterCall_identify_nack quality p, fun hcode => ?_, fun hcode => ?_⟩
  · rw [afterCall_presence, hcode, bne_self_eq_false]
  · rw [afterCall_presence, bne_iff_ne.mpr hcode]

/-! ### A list of results -/

/-- The result of a further call is followed by what the driver does after that call. -/
theorem followCalls_concat {quality : Word32} {d next : DriverNext} {rs : List CallResult} {r : CallResult}
    {op : Word16} {p : Word32} {why : Purpose} (hcall : followCalls quality d rs = .call op p why)
    (hnext : afterCall quality why r = next) : followCalls quality d (rs ++ [r]) = next := by
  induction rs generalizing d with
  | nil =>
    obtain rfl : d = .call op p why := hcall
    exact hnext
  | cons r' rs ih =>
    cases d with
    | call op' p' why' => exact ih hcall
    | retrieve => cases hcall
    | finish x => cases hcall

/-- Settles O57: each ACK is followed by the next call of R142, an ENROLL_START NACK and an error by the end. -/
theorem enrollmentSequence : Obligations.EnrollmentSequence := by
  intro quality slot p ack start
  have started : followCalls quality start [ack] = captureCall quality 1 (.enrollStep 1) :=
    afterCall_enrollStart_ack quality p
  have captured1 := followCalls_concat started (afterCall_capture_ack quality 1 (.enrollStep 1) p)
  have step1Done := followCalls_concat captured1 (afterCall_enrollStep_ack quality (k := 1) (by decide) p)
  have captured2 := followCalls_concat step1Done (afterCall_capture_ack quality 1 (.enrollStep 2) p)
  have step2Done := followCalls_concat captured2 (afterCall_enrollStep_ack quality (k := 2) (by decide) p)
  have captured3 := followCalls_concat step2Done (afterCall_capture_ack quality 1 (.enrollStep 3) p)
  have step3Done := followCalls_concat captured3 (afterCall_lastEnrollStep_ack quality p)
  exact ⟨rfl, started, captured1, step1Done, captured2, step2Done, captured3, step3Done,
    fun a hnack => afterCall_enrollStart_nack quality p hnack, fun _ => ⟨rfl, rfl, rfl⟩⟩

/-! ### The capture loop (R143) -/

/-- The results of calls that were all answered. -/
def repliesOf (rs : List (Word16 × Word32)) : List CallResult := rs.map fun r => .reply r.1 r.2

theorem repliesOf_concat (rs : List (Word16 × Word32)) (r : Word16 × Word32) :
    repliesOf (rs ++ [r]) = repliesOf rs ++ [.reply r.1 r.2] :=
  List.map_append

/-- Each NACK is followed by the next attempt, as long as the ceiling allows one more. -/
theorem followCalls_capture_nacks (quality : Word32) (after : AfterCapture) {nacks : List (Word16 × Word32)}
    (hnack : ∀ r, r ∈ nacks → r.1 ≠ 0x0030#16) (hlen : nacks.length < 500) :
    followCalls quality (captureCall quality 1 after) (repliesOf nacks) =
      captureCall quality (nacks.length + 1) after := by
  induction nacks using List.reverseRecOn with
  | nil => rfl
  | append_singleton rs r ih =>
    rw [List.length_append, List.length_singleton] at hlen ⊢
    rw [repliesOf_concat]
    have hbefore := ih (fun r' hr' => hnack r' (List.mem_append_left _ hr')) (by omega)
    exact followCalls_concat hbefore
      (afterCall_capture_nack_retry quality after hlen r.2 (hnack r List.mem_concat_self))

/-- After 500 NACKs the loop gives up. -/
theorem followCalls_capture_timeout (quality : Word32) (after : AfterCapture) {nacks : List (Word16 × Word32)}
    (hnack : ∀ r, r ∈ nacks → r.1 ≠ 0x0030#16) (hlen : nacks.length = 500) :
    followCalls quality (captureCall quality 1 after) (repliesOf nacks) = .finish .captureTimeout := by
  obtain rfl | ⟨rs, r, rfl⟩ := nacks.eq_nil_or_concat'
  · cases hlen
  · rw [List.length_append, List.length_singleton] at hlen
    have hbefore := followCalls_capture_nacks quality after
      (fun r' hr' => hnack r' (List.mem_append_left _ hr')) (by omega)
    rw [hlen] at hbefore
    rw [repliesOf_concat]
    exact followCalls_concat hbefore
      (afterCall_capture_nack_ceiling quality after r.2 (hnack r List.mem_concat_self))

/-- Settles O56: fewer than 500 NACKs leave the loop at its next attempt, whose result decides. -/
theorem captureLoopCeiling : Obligations.CaptureLoopCeiling := by
  refine ⟨?_, rfl, rfl, fun quality p => ⟨rfl, rfl, afterCall_enrollStart_ack quality p,
    fun k hk => afterCall_enrollStep_ack quality hk p⟩⟩
  intro quality after nacks hnack results run
  have hattempt := followCalls_capture_nacks quality after hnack
  refine ⟨hattempt, followCalls_capture_timeout quality after hnack, fun hlen p => ?_, fun hlen => ?_⟩
  · exact followCalls_concat (hattempt hlen) (afterCall_capture_ack quality _ after p)
  · exact ⟨followCalls_concat (hattempt hlen) rfl, followCalls_concat (hattempt hlen) rfl,
      followCalls_concat (hattempt hlen) rfl⟩

end Sys2Proof.Machine
end

section
/-!
PROOFS. The exceptions: the interrupt output (60_exceptions.md R161), that a step always answers a next state (R169), and
how operations and runs end (R158, R172, 70_reset_and_hazards.md R175).
-/
namespace Sys2Proof.Machine

/-! ### The step and the interrupt output -/

/-- Settles O7: an instruction's bus writes and an agent's own step both answer a next state. -/
theorem everyStepAnswersNext : Obligations.EveryStepAnswersNext := by
  intro s
  rcases stepEvent_cases s.nextEvent s.popEvent with ⟨i, -, h⟩ | ⟨-, h⟩
  · exact ⟨_, h⟩
  · exact ⟨_, h⟩

theorem irq_iff (s : State) : s.irq = true ↔
    (s.flags.done = true ∧ s.intEn.doneEn = true) ∨ (s.flags.timeout = true ∧ s.intEn.timeoutEn = true) ∨
    (s.flags.csumErr = true ∧ s.intEn.csumErrEn = true) ∨ (s.flags.busyErr = true ∧ s.intEn.busyErrEn = true) := by
  simp [State.irq, or_assoc]

/-- The word with bits 1 to 4 set clears every W1C bit of STATUS (20_memory.md R54). -/
theorem clearFlags_all (f : Flags) : clearFlags 0x1E#32 f = ⟨false, false, false, false⟩ := by
  simp [clearFlags]

theorem irq_of_no_flag {s : State} (h : s.flags = ⟨false, false, false, false⟩) : s.irq = false := by
  simp [State.irq, h]

theorem irq_of_no_enable {s : State} (h : s.intEn = ⟨false, false, false, false⟩) : s.irq = false := by
  simp [State.irq, h]

/-- Settles O50: the lock covers neither STATUS nor INT_EN, so the host can clear the flags and the enables. -/
theorem interruptOutput : Obligations.InterruptOutput := by
  refine ⟨irq_iff, fun s => ⟨?_, ?_, irq_of_no_flag rfl⟩⟩
  · rw [wr_of_unlockable s _ rfl]
    exact irq_of_no_flag (clearFlags_all s.flags)
  · rw [wr_of_unlockable s _ rfl]
    exact irq_of_no_enable rfl

/-! ### The end of an operation (70_reset_and_hazards.md R175) -/

/-- As an operation leaves the block: exactly one outcome is set, and the Engine is in HALTED just when that is a fatal
timeout (60_exceptions.md R158). -/
structure Ended (t : State) : Prop where
  outcome : oneOutcome t.flags = true
  halted : t.eng = .halted ↔ t.flags.timeout = true ∧ t.ctrl.toFatal = true

theorem busy_iff (s : State) : s.busy = true ↔ s.eng = .send ∨ s.eng = .recv ∨ s.eng = .sleep := by
  simp [State.busy, or_assoc]

theorem ended_finish {s : State} (hn : noOutcome s.flags = true) : Ended s.finish := by
  obtain ⟨-, htimeout, hcsum⟩ := (noOutcome_iff _).1 hn
  exact ⟨by simp [oneOutcome, htimeout, hcsum], by simp [htimeout]⟩

theorem ended_raise_checksumMismatch {s : State} (hn : noOutcome s.flags = true) :
    Ended (s.raise .checksumMismatch) := by
  obtain ⟨hdone, htimeout, -⟩ := (noOutcome_iff _).1 hn
  exact ⟨by simp [oneOutcome, errorFlags, hdone, htimeout], by simp [errorFlags, htimeout]⟩

theorem ended_raise_timeout {s : State} (hn : noOutcome s.flags = true) : Ended (s.raise .timeout) := by
  obtain ⟨hdone, -, hcsum⟩ := (noOutcome_iff _).1 hn
  exact ⟨by simp [oneOutcome, errorFlags, hdone, hcsum], by simp [timeoutEng_eq, errorFlags]⟩

/-- A completion ends the operation with DONE or CSUMERR (41_link_operations.md R117, 40_codec.md R99). -/
theorem ended_complete {s : State} (p : List Byte) (hn : noOutcome s.flags = true) : Ended (s.complete p) := by
  rcases complete_cases s p with ⟨-, h⟩ | ⟨-, -, h⟩ | ⟨-, -, h⟩ <;> rw [h]
  · exact ended_raise_checksumMismatch hn
  · exact ended_finish (s := (s.recordCsum p).decodeReply p) hn
  · exact ended_finish (s := s.recordCsum p) hn

/-- A stall polls again or ends the operation with TIMEOUT (41_link_operations.md R115). -/
theorem stall_busy_or_ended {s : State} (hn : noOutcome s.flags = true) : s.stall.busy = true ∨ Ended s.stall := by
  rcases stall_cases s with ⟨-, h⟩ | ⟨-, h⟩ <;> rw [h]
  · exact .inr (ended_raise_timeout (s := s.countStall) hn)
  · exact .inl rfl

/-- The last byte sent leads on to RECV or ends the operation with DONE (41_link_operations.md R111). -/
theorem endOfSend_busy_or_ended {s : State} (hb : s.busy = true) (hn : noOutcome s.flags = true) :
    s.endOfSend.busy = true ∨ Ended s.endOfSend := by
  rcases endOfSend_cases s with ⟨-, h⟩ | ⟨-, h⟩ | ⟨-, h⟩ <;> rw [h]
  · exact .inl rfl
  · exact .inr (ended_finish hn)
  · exact .inl hb

theorem sendByte_busy_or_ended {s : State} (hb : s.busy = true) (hn : noOutcome s.flags = true) :
    s.sendByte.busy = true ∨ Ended s.sendByte := by
  rcases sendByte_cases s with ⟨-, h⟩ | ⟨-, h⟩ | ⟨-, h⟩ <;> rw [h]
  · exact .inl hb
  · exact (endOfSend_busy_or_ended (s := s.pushNext) hb hn).imp_right fun hend => { hend with }
  · exact .inl hb

theorem poll_busy_or_ended {s : State} (hb : s.busy = true) (hn : noOutcome s.flags = true) :
    s.poll.busy = true ∨ Ended s.poll := by
  rcases poll_cases s with ⟨b, rest, -, h⟩ | ⟨-, -, h⟩ | ⟨-, -, h⟩ <;> rw [h]
  · rcases receiveByte_cases s b rest with ⟨-, h⟩ | ⟨-, h⟩ <;> rw [h]
    · exact .inr { ended_complete (s := s.takeByte b rest) _ (by rwa [takeByte_flags]) with }
    · exact .inl (by simpa [State.busy] using hb)
  · exact (stall_busy_or_ended hn).imp_right fun hend => { hend with }
  · exact .inl rfl

theorem engineStep_busy_or_ended {s : State} (accept : Bool) (hb : s.busy = true) (hn : noOutcome s.flags = true) :
    (s.engineStep accept).busy = true ∨ Ended (s.engineStep accept) := by
  rcases engineStep_cases s accept with ⟨-, -, h⟩ | ⟨-, h⟩ | ⟨-, h⟩ <;> rw [h]
  · exact sendByte_busy_or_ended hb hn
  · exact poll_busy_or_ended hb hn
  · exact .inl hb

theorem tick_busy_or_ended {s : State} (hb : s.busy = true) (hn : noOutcome s.flags = true) :
    s.tick.busy = true ∨ Ended s.tick := by
  rcases tick_cases s with ⟨-, -, h⟩ | ⟨-, -, h⟩ | ⟨-, h⟩ <;> rw [h]
  · exact stall_busy_or_ended (s := s.countTick) hn
  · exact .inl hb
  · exact .inl hb

theorem SamePhase.busy {s t : State} (h : SamePhase s t) (hb : s.busy = true) : t.busy = true := by
  obtain ⟨heng, -⟩ := h
  rwa [State.busy, heng]

/-- A step other than reset keeps BUSY or ends the operation. -/
theorem step_busy_or_ended {s t : State} (h : step s = .next t) (hb : s.busy = true) (hn : noOutcome s.flags = true)
    (hreset : s.nextEvent ≠ .reset) : t.busy = true ∨ Ended t := by
  have hb' : s.popEvent.busy = true := by rwa [busy_popEvent]
  have hn' : noOutcome s.popEvent.flags = true := by rwa [popEvent_flags]
  rcases step_phase_cases h with ⟨a, -, ht⟩ | ⟨-, ht⟩ | ⟨he, -⟩ | ⟨hidle, -⟩ | hp
  · exact ht ▸ engineStep_busy_or_ended a hb' hn'
  · exact ht ▸ tick_busy_or_ended hb' hn'
  · exact absurd he hreset
  · simp [State.busy, hidle] at hb
  · exact .inl (hp.busy hb')

theorem Ended.operationEnded {t : State} (h : Ended t) (hb : t.busy = false) : t.operationEnded = true := by
  simp [State.operationEnded, hb, h.outcome]

/-! ### HALTED, and the end of a run -/

/-- A halted Engine neither steps nor ticks, and no phase starts in a locked block (60_exceptions.md R158, R172). -/
theorem step_halted {s t : State} (hs : s.eng = .halted) (h : step s = .next t) :
    t.eng = .halted ∨ (s.nextEvent = .reset ∧ t.eng = .idle) := by
  have hpop : s.popEvent.eng = .halted := by rwa [popEvent_eng]
  rcases step_phase_cases h with ⟨a, -, ht⟩ | ⟨-, ht⟩ | hreset | ⟨hidle, -⟩ | ⟨heng, -⟩
  · obtain ⟨-, -, -, hhold⟩ := engineStep_holds s.popEvent a
    exact .inl (by rwa [ht, hhold hpop])
  · exact .inl (by rwa [ht, tick_of_ne_sleep (by simp [hs])])
  · exact .inr hreset
  · simp [hs] at hidle
  · exact .inl (heng.trans hpop)

theorem hostEnded_iff (s : State) : s.hostEnded = true ↔
    s.host.program.length ≤ s.host.pc ∧ s.host.pending = [] ∧ driverFree s.driver.phase = true := by
  simp [State.hostEnded, State.pastProgram, and_assoc]

theorem runFinished_iff (s : State) :
    s.runFinished = true ↔ s.hostEnded = true ∧ s.eng ≠ .send ∧ s.eng ≠ .recv ∧ s.eng ≠ .sleep := by
  rw [State.runFinished, Bool.and_eq_true, Bool.not_eq_true', Bool.eq_false_iff, ne_eq, busy_iff]
  simp

theorem hostTurn_past_end {s : State} (h : s.host.program.length ≤ s.host.pc) : s.hostTurn = s := by
  simp [State.hostTurn, h]

/-- Settles O33: under the invariant a busy block has no outcome yet, so the step that ends its operation sets the only
one. -/
theorem operationsEndAndOnlyResetLeavesHalted : Obligations.OperationsEndAndOnlyResetLeavesHalted := by
  refine ⟨fun s t hinv hb hreset h hfree => ?_, fun s t => step_halted, fun s => ?_, fun s => hostTurn_past_end⟩
  · have hend : Ended t :=
      (step_busy_or_ended h hb (hinv.busyNoOutcome hb) hreset).resolve_left (by simp [hfree])
    exact ⟨hend.operationEnded hfree, hend.outcome, hend.halted⟩
  · rw [runFinished_iff, hostEnded_iff]

end Sys2Proof.Machine
end

section
/-!
PROOFS. The reset input (70_reset_and_hazards.md R170, R171).
-/
namespace Sys2Proof.Machine

/-- The reset input is no access of the Host, so it waits for no pending write, and no other state of the block or of
its agents holds it back. -/
theorem step_reset {s : State} {rest : List Event} (h : s.inputs = .reset :: rest) :
    step s = .next (State.assertReset { s with inputs := rest }) :=
  step_cons h (deferred_of_no_access h rfl)

/-- Settles O52: the step asserts reset at once, which takes from the old state only what is not the block's. -/
theorem resetFromAnyState : Obligations.ResetFromAnyState := by
  intro s rest h
  rw [step_reset h, State.assertReset]

end Sys2Proof.Machine
end
